-- ==== Sys2Proof/Word.lean ====
section
/-! DEFINITION. The word types of optoforce CORE (spec/00_scope.md R7): a byte is 0 to 255, a field or status
word is 16 bits, a scaled force is the 64-bit pattern of an IEEE 754 binary64 value. -/

namespace Sys2Proof

/-- One byte of either stream (R7: "A **byte** is an unsigned integer 0 to 255"). -/
abbrev Byte := BitVec 8

/-- A 16-bit word: `count`, `status`, a raw sample, `checksum`, a command word (R7, R18, R72). Bit 0 is the least
significant bit. A raw sample is the same 16 bits read with `BitVec.toInt` (R7 `sext_16`). -/
abbrev Half := BitVec 16

/-- The bit pattern of a binary64 value (R18, R120). -/
abbrev F64 := BitVec 64

end Sys2Proof
end

