-- ==== Sys2Proof/Config.lean ====
section
/-! DEFINITION. What is fixed for one optoforce CORE: the PacketFormat a connection is strapped for
(spec/00_scope.md R6, spec/10_state.md R11).

The other parameters of R6 take these values here: `AVAIL_W` is unbounded (`RxAvail` answers a natural number) and
`RXQ_DEPTH` is unbounded, the two defaults R6 names (log entry 4). `HDR`, `TOTAL`, `BLEN`, `NS` follow from the
variant in Machine/Formats.lean. The spec leaves no result of an instruction open, so there is no free value here. -/

namespace Sys2Proof

/-- The three packet formats of R6 and R60. -/
inductive Variant where
  | compact
  | extended
  | multi
deriving DecidableEq, Repr

/-- The strap that the one value `State.reset` samples. R6 makes `VARIANT` a model argument; every statement speaks of
every strap, and a `Turn.reset` samples any strap (DESIGN CHOICE, unsafe, log entry 1). `none` is the 2-bit code 3,
"not a variant" (R11). -/
def Config.strap : Option Variant := some .compact

end Sys2Proof
end

