-- ==== Sys2Proof/Syntax.lean ====
section
/-! DEFINITION. The instructions: one constructor for each of the 18 rows of spec/opcode_table.json
(spec/30_encoding.md R76, R78), their operands, and the ports a request is presented on. -/

namespace Sys2Proof

/-- The axis of a force sample (spec/42_packet_parser.md R122). -/
inductive Axis where
  | x
  | y
  | z
deriving DecidableEq, Repr

/-- Three consecutive 16-bit samples, in the order x, y, z (R61 to R63). -/
structure Triple where
  x : Half
  y : Half
  z : Half
deriving DecidableEq, Repr

/-- The sample rates of the configuration frame (R68), in the source's order. -/
inductive Speed where
  | stop
  | hz1000
  | hz333
  | hz100
  | hz30
  | hz10
deriving DecidableEq, Repr

/-- The filters of the configuration frame (R69), in the source's order. -/
inductive Filter where
  | off
  | hz500
  | hz150
  | hz50
  | hz15
  | hz5
  | hz1_5
deriving DecidableEq, Repr

/-- One constructor per row of the opcode table. -/
inductive Instr where
  /-- `CFGENC speed_sel, filter_sel, zero` (R72, R140): the selectors are the raw 3-bit fields, since invalid ones are
  an architectural case (R141). -/
  | cfgenc (speedSel filterSel : BitVec 3) (zero : Bool)
  /-- `READ1 drain_latest` (R72, R152). -/
  | read1 (drainLatest : Bool)
  /-- `READALL` (R72, R159). -/
  | readall
  /-- `PARSE.C`: the fields of a compact packet (R61, R126). -/
  | parseC (count status : Half) (f : Triple) (checksum : Half)
  /-- `PARSE.E`: the fields of an extended-torque packet, force triple then torque triple (R62, R127). -/
  | parseE (count status : Half) (f t : Triple) (checksum : Half)
  /-- `PARSE.M`: the fields of a multi-sensor packet, four consecutive triples (R63, R128). -/
  | parseM (count status : Half) (f0 f1 f2 f3 : Triple) (checksum : Half)
  /-- `CFGFRAME speed, filter, zero` (R66, R142), with the checksum field that the frame's word carries. -/
  | cfgframe (speed : Speed) (filter : Filter) (zero : Bool) (checksum : Half)
  /-- `STATDEC w` (R100). -/
  | statdec (w : Half)
  /-- `DAQ c`, `c = w[15:13]` (R101). -/
  | daq (c : BitVec 3)
  /-- `SEN c`, `c = w[12:10]` (R102). -/
  | sen (c : BitVec 3)
  /-- `OVLD`, the six flags `w[9:4]` (R103). -/
  | ovld (flags : BitVec 6)
  /-- `MULT b`, `b = w[3]` (R104). -/
  | mult (b : Bool)
  /-- `SIDX c`, `c = w[2:0]` (R105). -/
  | sidx (c : BitVec 3)
  /-- `NOERR w` (R108). -/
  | noerr (w : Half)
  /-- `CSUM.IN(H, B)` with `H = AA 07 08 h` (R90). -/
  | csumIn (h : Byte) (body : List Byte)
  /-- `CSUM.VALID(H, B)` with `H = AA 07 08 h` (R91). -/
  | csumValid (h : Byte) (body : List Byte)
  /-- `CSUM.OUT(F)` with `F = AA 00 32 03 speed_code filter_code zero_flag` (R92). -/
  | csumOut (speedCode filterCode zeroFlag : Byte)
  /-- `SCALE_a(r)` (R122). -/
  | scale (a : Axis) (r : Half)
deriving DecidableEq, Repr

/-- Where a request is presented. `cmd` is the block's one host command port (R72, R190). The others are free-standing
copies of the pure units, which "may be copied freely" (R55, R193): the table gives the rows of one unit the same
bits, and the unit that is asked tells them apart (R78), log entries 5 and 6. -/
inductive Port where
  | cmd
  | cfgframe
  | statdec
  | daq
  | sen
  | ovld
  | mult
  | sidx
  | noerr
  | csumIn
  | csumValid
  | csumOut
  | scale (a : Axis)
deriving DecidableEq, Repr

/-- Where an instruction's bytes are read from: a port, or the framer's header constant and body buffer (R158). -/
inductive Slot where
  | port (p : Port)
  | packet (v : Variant)
deriving DecidableEq, Repr

/-- One request: the port and the bytes presented there, most significant byte first (R78). -/
structure Request where
  port : Port
  bytes : List Byte
deriving DecidableEq, Repr

end Sys2Proof
end

