-- ==== Sys2Proof/Machine/Formats.lean ====
section
/-! DEFINITION. The constants and byte layouts of every format (spec/00_scope.md R6, spec/30_encoding.md R60 to R70):
headers, sizes, the speed and filter code tables, big-endian assembly, and the sum of bytes that both checksums are. -/

namespace Sys2Proof

/-- `be16(h, l) = 256*h + l` (R7, R48). -/
def be16 (h l : Byte) : Half := h ++ l

/-- The two bytes of a 16-bit field, high byte first (R48, R67: "high/low bytes via divmod by 256"). -/
def halfBytes (w : Half) : List Byte := [w.extractLsb' 8 8, w.extractLsb' 0 8]

/-- A number of `n` bytes as bytes, most significant first: R78's numbering of a frame. -/
def bytesOfNat : Nat → Nat → List Byte
  | 0, _ => []
  | n + 1, w => BitVec.ofNat 8 (w >>> (8 * n)) :: bytesOfNat n w

/-- The 16-bit big-endian fields of a body, in order; `none` for an odd number of bytes (R64). -/
def halves : List Byte → Option (List Half)
  | [] => some []
  | [_] => none
  | h :: l :: rest => (halves rest).map (be16 h l :: ·)

/-- What follows a constant prefix, `none` where the bytes do not begin with it. -/
def afterPrefix : List Byte → List Byte → Option (List Byte)
  | [], bs => some bs
  | _ :: _, [] => none
  | p :: ps, b :: bs => if p = b then afterPrefix ps bs else none

/-- `HDR(VARIANT)` (R6). -/
def hdr : Variant → List Byte
  | .compact => [0xAA, 0x07, 0x08, 0x0A]
  | .extended => [0xAA, 0x07, 0x08, 0x10]
  | .multi => [0xAA, 0x07, 0x08, 0x1C]

/-- The header operand of CSUM.IN and CSUM.VALID as the table gives it: `AA 07 08` and one more byte. -/
def hdrOf (h : Byte) : List Byte := [0xAA, 0x07, 0x08, h]

/-- `HLEN`, 4 for every variant (R6). -/
def hlen : Nat := 4

/-- `TOTAL(VARIANT)`: "byte count including header" (R6). -/
def total : Variant → Nat
  | .compact => 16
  | .extended => 22
  | .multi => 34

/-- `BLEN(VARIANT) = TOTAL - HLEN` (R6). -/
def blen (v : Variant) : Nat := total v - hlen

/-- `NS(VARIANT)`: the number of samples in the body (R6). -/
def ns : Variant → Nat
  | .compact => 3
  | .extended => 6
  | .multi => 12

/-- The number of force triples of a variant (R18). -/
def lanes : Variant → Nat
  | .compact => 1
  | .extended => 1
  | .multi => 4

/-- The 2-bit code of `VARIANT` (R11): 3 is not a variant. -/
def variantCode : Option Variant → BitVec 2
  | some .compact => 0
  | some .extended => 1
  | some .multi => 2
  | none => 3

/-- The samples of a triple in body order. -/
def tripleHalves (t : Triple) : List Half := [t.x, t.y, t.z]

/-- The body bytes of a packet with these fields: two u16 fields, the samples, the checksum field, all big-endian
(R61 to R63). -/
def packetBody (count status : Half) (samples : List Triple) (checksum : Half) : List Byte :=
  (count :: status :: (samples.flatMap tripleHalves ++ [checksum])).flatMap halfBytes

/-- The four constant bytes of the configuration frame (R66). -/
def cfgHeader : List Byte := [0xAA, 0x00, 0x32, 0x03]

/-- `speed_code` (R68). -/
def speedCode : Speed → Byte
  | .stop => 0
  | .hz1000 => 1
  | .hz333 => 3
  | .hz100 => 10
  | .hz30 => 33
  | .hz10 => 100

/-- The rate that a 3-bit `speed_sel` selects; 6 and 7 are "not a rate" (R68). -/
def speedOfSel (sel : BitVec 3) : Option Speed :=
  match sel.toNat with
  | 0 => some .stop
  | 1 => some .hz1000
  | 2 => some .hz333
  | 3 => some .hz100
  | 4 => some .hz30
  | 5 => some .hz10
  | _ => none

/-- The rate with a given wire code (R68). -/
def speedOfCode (c : Byte) : Option Speed :=
  match c.toNat with
  | 0 => some .stop
  | 1 => some .hz1000
  | 3 => some .hz333
  | 10 => some .hz100
  | 33 => some .hz30
  | 100 => some .hz10
  | _ => none

/-- `filter_code` (R69). -/
def filterCode : Filter → Byte
  | .off => 0
  | .hz500 => 1
  | .hz150 => 2
  | .hz50 => 3
  | .hz15 => 4
  | .hz5 => 5
  | .hz1_5 => 6

/-- The filter that a number 0 to 6 selects: the 3-bit `filter_sel` and the wire code are equal (R69). -/
def filterOfNat : Nat → Option Filter
  | 0 => some .off
  | 1 => some .hz500
  | 2 => some .hz150
  | 3 => some .hz50
  | 4 => some .hz15
  | 5 => some .hz5
  | 6 => some .hz1_5
  | _ => none

/-- The filter that a 3-bit `filter_sel` selects; 7 is "not a filter" (R69). -/
def filterOfSel (sel : BitVec 3) : Option Filter := filterOfNat sel.toNat

/-- The filter with a given wire code (R69). -/
def filterOfCode (c : Byte) : Option Filter := filterOfNat c.toNat

/-- `zero_flag`: 255 if zeroing is requested, else 0 (R70). -/
def zeroFlag (zero : Bool) : Byte := if zero then 0xFF else 0x00

/-- The request that a wire `zero_flag` stands for: no value but `00` and `FF` is ever produced (R70). -/
def zeroOfFlag (b : Byte) : Option Bool := if b = 0xFF then some true else if b = 0x00 then some false else none

/-- `sum(B)`: the bytes added as unbounded naturals (R7). -/
def byteSum (bs : List Byte) : Nat := (bs.map BitVec.toNat).sum

/-- A sum of bytes modulo 65536, with no carry brought back and no complement (R94). -/
def sum16 (bs : List Byte) : Half := BitVec.ofNat 16 (byteSum bs)

/-- `CSUM.OUT(F) = sum(F[0..6]) mod 65536` (R92). -/
def checksumOut (frame : List Byte) : Half := sum16 (frame.take 7)

/-- The first seven bytes of a configuration frame (R92). -/
def cfgPrefix (speedC filterC zeroF : Byte) : List Byte := cfgHeader ++ [speedC, filterC, zeroF]

/-- `CFGFRAME`: the seven bytes and their checksum, high byte first (R142). -/
def cfgFrame (speed : Speed) (filter : Filter) (zero : Bool) : List Byte :=
  cfgPrefix (speedCode speed) (filterCode filter) (zeroFlag zero)
    ++ halfBytes (checksumOut (cfgPrefix (speedCode speed) (filterCode filter) (zeroFlag zero)))

end Sys2Proof
end

