-- ==== Sys2Proof/WellFormed.lean ====
section
/-! DEFINITION. Which instructions are well formed. The operand types already exclude most of what is not: what is left
is the checksum field of a CFG9 frame (spec/30_encoding.md R67) and the length of a body given to CSUM.IN or CSUM.VALID
(spec/40_checksum.md R90: "of length `n >= 2`"). -/

namespace Sys2Proof

/-- The two conditions, one match arm per constructor. -/
def Instr.wellFormed : Instr → Bool
  | .cfgenc _ _ _ => true
  | .read1 _ => true
  | .readall => true
  | .parseC _ _ _ _ => true
  | .parseE _ _ _ _ _ => true
  | .parseM _ _ _ _ _ _ _ => true
  | .cfgframe speed filter zero checksum =>
      checksum == checksumOut (cfgPrefix (speedCode speed) (filterCode filter) (zeroFlag zero))
  | .statdec _ => true
  | .daq _ => true
  | .sen _ => true
  | .ovld _ => true
  | .mult _ => true
  | .sidx _ => true
  | .noerr _ => true
  | .csumIn _ body => 2 ≤ body.length
  | .csumValid _ body => 2 ≤ body.length
  | .csumOut _ _ _ => true
  | .scale _ _ => true

end Sys2Proof
end

