-- ==== Sys2Proof/Decode.lean ====
section
/-! DEFINITION. Decoding, total on any bytes, each rejection with a name; and after it the encoder. Written from the
tables of spec/30_encoding.md (R61 to R63 the packets, R66 the configuration frame, R71 the status word, R72 the command
word) and from spec/opcode_table.json with R78's numbering: the most significant byte of a frame is its first byte. -/

namespace Sys2Proof

/-- Why bytes are no instruction. -/
inductive Reject where
  /-- `cmd[15:12]` is 0 or 4 to 15 (R72, R74). -/
  | reservedOpcode
  /-- The bytes are not as many as the format has (R75, R129). -/
  | wrongLength
  /-- The bytes do not begin with the format's constant header (R73). -/
  | badHeader
  /-- Byte 4 of a configuration frame is no speed code (R68). -/
  | badSpeedCode
  /-- Byte 5 of a configuration frame is no filter code (R69). -/
  | badFilterCode
  /-- Byte 6 of a configuration frame is neither `00` nor `FF` (R70). -/
  | badZeroFlag
deriving DecidableEq, Repr

/-- What decoding answers. -/
inductive Decoded where
  | instr (i : Instr)
  | rejected (why : Reject)
deriving DecidableEq, Repr

/-- The command word (R72): the opcode is `cmd[15:12]`; the bits no operand names are ignored. -/
def decodeCommand (w : Half) : Decoded :=
  match (w.extractLsb' 12 4).toNat with
  | 1 => .instr (.cfgenc (w.extractLsb' 9 3) (w.extractLsb' 6 3) (w.getLsbD 5))
  | 2 => .instr (.read1 (w.getLsbD 11))
  | 3 => .instr .readall
  | _ => .rejected .reservedOpcode

/-- A 16-bit operand word: the first byte is the most significant (R78). -/
def decodeWord (f : Half → Decoded) : List Byte → Decoded
  | [h, l] => f (be16 h l)
  | _ => .rejected .wrongLength

/-- A configuration frame (R66): header, speed code, filter code, zero flag, checksum field. -/
def decodeCfgFrame (bs : List Byte) : Decoded :=
  match afterPrefix cfgHeader bs with
  | none => .rejected .badHeader
  | some [s, f, z, ch, cl] =>
    match speedOfCode s with
    | none => .rejected .badSpeedCode
    | some speed =>
      match filterOfCode f with
      | none => .rejected .badFilterCode
      | some filter =>
        match zeroOfFlag z with
        | none => .rejected .badZeroFlag
        | some zero => .instr (.cfgframe speed filter zero (be16 ch cl))
  | some _ => .rejected .wrongLength

/-- The operands of CSUM.IN and CSUM.VALID: `AA 07 08 h` and a body of at least two bytes (R90). -/
def decodeCsum (mk : Byte → List Byte → Instr) (bs : List Byte) : Decoded :=
  match afterPrefix [0xAA, 0x07, 0x08] bs with
  | none => .rejected .badHeader
  | some [] => .rejected .wrongLength
  | some (h :: body) => if 2 ≤ body.length then .instr (mk h body) else .rejected .wrongLength

/-- The operand of CSUM.OUT: the first seven bytes of a configuration frame (R92). -/
def decodeCsumOut (bs : List Byte) : Decoded :=
  match afterPrefix cfgHeader bs with
  | none => .rejected .badHeader
  | some [s, f, z] => .instr (.csumOut s f z)
  | some _ => .rejected .wrongLength

/-- The fields of a compact body (R61). -/
def compactFields : Option (List Half) → Decoded
  | some [c, st, x, y, z, k] => .instr (.parseC c st ⟨x, y, z⟩ k)
  | _ => .rejected .wrongLength

/-- The fields of an extended-torque body (R62). -/
def extendedFields : Option (List Half) → Decoded
  | some [c, st, x, y, z, tx, ty, tz, k] => .instr (.parseE c st ⟨x, y, z⟩ ⟨tx, ty, tz⟩ k)
  | _ => .rejected .wrongLength

/-- The fields of a multi-sensor body (R63). -/
def multiFields : Option (List Half) → Decoded
  | some [c, st, x0, y0, z0, x1, y1, z1, x2, y2, z2, x3, y3, z3, k] =>
      .instr (.parseM c st ⟨x0, y0, z0⟩ ⟨x1, y1, z1⟩ ⟨x2, y2, z2⟩ ⟨x3, y3, z3⟩ k)
  | _ => .rejected .wrongLength

/-- The fields of a body of the given variant (R61 to R63); any other length is rejected, never padded or truncated
(R129). -/
def decodeBody (v : Variant) (body : List Byte) : Decoded :=
  match v with
  | .compact => compactFields (halves body)
  | .extended => extendedFields (halves body)
  | .multi => multiFields (halves body)

/-- A whole packet: it is recognised by the header of the connection's own variant only (R65, R73). -/
def decodePacket (v : Variant) (bs : List Byte) : Decoded :=
  match afterPrefix (hdr v) bs with
  | none => .rejected .badHeader
  | some body => decodeBody v body

/-- What each port reads. The field functions read their own bits of the status word and ignore the rest (R71, R78). -/
def decodePort (p : Port) (bs : List Byte) : Decoded :=
  match p with
  | .cmd => decodeWord decodeCommand bs
  | .cfgframe => decodeCfgFrame bs
  | .statdec => decodeWord (fun w => .instr (.statdec w)) bs
  | .daq => decodeWord (fun w => .instr (.daq (w.extractLsb' 13 3))) bs
  | .sen => decodeWord (fun w => .instr (.sen (w.extractLsb' 10 3))) bs
  | .ovld => decodeWord (fun w => .instr (.ovld (w.extractLsb' 4 6))) bs
  | .mult => decodeWord (fun w => .instr (.mult (w.getLsbD 3))) bs
  | .sidx => decodeWord (fun w => .instr (.sidx (w.extractLsb' 0 3))) bs
  | .noerr => decodeWord (fun w => .instr (.noerr w)) bs
  | .csumIn => decodeCsum .csumIn bs
  | .csumValid => decodeCsum .csumValid bs
  | .csumOut => decodeCsumOut bs
  | .scale a => decodeWord (fun w => .instr (.scale a w)) bs

/-- The decoder. -/
def decode (slot : Slot) (bs : List Byte) : Decoded :=
  match slot with
  | .port p => decodePort p bs
  | .packet v => decodePacket v bs

/-- Where an instruction's bytes stand. -/
def Instr.slot : Instr → Slot
  | .cfgenc _ _ _ => .port .cmd
  | .read1 _ => .port .cmd
  | .readall => .port .cmd
  | .parseC _ _ _ _ => .packet .compact
  | .parseE _ _ _ _ _ => .packet .extended
  | .parseM _ _ _ _ _ _ _ => .packet .multi
  | .cfgframe _ _ _ _ => .port .cfgframe
  | .statdec _ => .port .statdec
  | .daq _ => .port .daq
  | .sen _ => .port .sen
  | .ovld _ => .port .ovld
  | .mult _ => .port .mult
  | .sidx _ => .port .sidx
  | .noerr _ => .port .noerr
  | .csumIn _ _ => .port .csumIn
  | .csumValid _ _ => .port .csumValid
  | .csumOut _ _ _ => .port .csumOut
  | .scale a _ => .port (.scale a)

/-- The bytes of an instruction; bits that no field names are written as zero (R72: "Ignored bits should be written as
zero"). -/
def encode : Instr → List Byte
  | .cfgenc speedSel filterSel zero => halfBytes (1#4 ++ speedSel ++ filterSel ++ BitVec.ofBool zero ++ 0#5)
  | .read1 drainLatest => halfBytes (2#4 ++ BitVec.ofBool drainLatest ++ 0#11)
  | .readall => halfBytes (3#4 ++ 0#12)
  | .parseC count status f checksum => hdr .compact ++ packetBody count status [f] checksum
  | .parseE count status f t checksum => hdr .extended ++ packetBody count status [f, t] checksum
  | .parseM count status f0 f1 f2 f3 checksum => hdr .multi ++ packetBody count status [f0, f1, f2, f3] checksum
  | .cfgframe speed filter zero checksum =>
      cfgPrefix (speedCode speed) (filterCode filter) (zeroFlag zero) ++ halfBytes checksum
  | .statdec w => halfBytes w
  | .daq c => halfBytes (c ++ 0#13)
  | .sen c => halfBytes (0#3 ++ c ++ 0#10)
  | .ovld flags => halfBytes (0#6 ++ flags ++ 0#4)
  | .mult b => halfBytes (0#12 ++ BitVec.ofBool b ++ 0#3)
  | .sidx c => halfBytes (0#13 ++ c)
  | .noerr w => halfBytes w
  | .csumIn h body => hdrOf h ++ body
  | .csumValid h body => hdrOf h ++ body
  | .csumOut s f z => cfgPrefix s f z
  | .scale _ r => halfBytes r

/-- How many operand bytes follow the four bytes that the table gives CSUM.IN: the body of the variant whose header the
four bytes are, the longest body for any other (R90). -/
def tableBodyLength (bs : List Byte) : Nat :=
  if bs = hdr .compact then blen .compact else if bs = hdr .extended then blen .extended else blen .multi

/-- The slot and the bytes that a word of the opcode table stands for, from its width (R60, R78). The table gives rows
of one unit the same bits, so the first such row is taken: a 16-bit word whose opcode is not reserved is a command and
any other the status word of STATDEC; a 32-bit word is CSUM.IN's, with a body of zeros (log entry 6). -/
def tableSlot (nbits w : Nat) : Option (Slot × List Byte) :=
  match nbits with
  | 16 =>
    match decode (.port .cmd) (bytesOfNat 2 w) with
    | .instr _ => some (.port .cmd, bytesOfNat 2 w)
    | .rejected _ => some (.port .statdec, bytesOfNat 2 w)
  | 32 => some (.port .csumIn, bytesOfNat 4 w ++ List.replicate (tableBodyLength (bytesOfNat 4 w)) 0)
  | 56 => some (.port .csumOut, bytesOfNat 7 w)
  | 72 => some (.port .cfgframe, bytesOfNat 9 w)
  | 128 => some (.packet .compact, bytesOfNat 16 w)
  | 176 => some (.packet .extended, bytesOfNat 22 w)
  | 272 => some (.packet .multi, bytesOfNat 34 w)
  | _ => none

/-- The instruction the decoder reads from a table word. -/
def decodeTableWord (nbits w : Nat) : Option Instr :=
  match tableSlot nbits w with
  | none => none
  | some (slot, bs) =>
    match decode slot bs with
    | .instr i => some i
    | .rejected _ => none

end Sys2Proof
end

