-- ==== Sys2Proof/Machine/State.lean ====
section
/-! DEFINITION. The state of optoforce CORE as plain data (spec/10_state.md R10 to R31): the block's registers, the
transport's queues and bits, and the environment's pending moves; the reasons a step can stop; the state after reset. -/

namespace Sys2Proof.Machine

/-- `FSM` (R12). -/
inductive Fsm where
  | idle
  | synchronizing
  | bodyPending
  | decoded
deriving DecidableEq, Repr

/-- `OP`, the operation in progress (R13). -/
inductive Op where
  | none
  | cfgEnc
  | read1
  | readAll
deriving DecidableEq, Repr

/-- `DRAINPH`, the progress of the drain (R14). -/
inductive DrainPh where
  | no
  | check
  | flush
deriving DecidableEq, Repr

/-- `OUTCOME`, how the last finished operation ended (R24, R180). -/
inductive Ending where
  | ok
  | configurationError
  | transportError
  | refused
deriving DecidableEq, Repr

/-- `daq_error` (R100, R101). -/
inductive DaqError where
  | noError
  | daqError
  | commError
  | reserved
deriving DecidableEq, Repr

/-- `sensor_error` (R100, R102). -/
inductive SensorError where
  | noError
  | notDetected
  | failure
  | temperatureError
  | reserved
deriving DecidableEq, Repr

/-- An axis that can be overloaded (R103). -/
inductive Channel where
  | fx
  | fy
  | fz
  | tx
  | ty
  | tz
deriving DecidableEq, Repr

/-- `multiplicity` (R104). -/
inductive Multiplicity where
  | single
  | multiple
deriving DecidableEq, Repr

/-- `sensor_index` (R105). -/
inductive SensorIndex where
  | none
  | one
  | two
  | three
  | four
  | reserved
deriving DecidableEq, Repr

/-- The StatusReport (R100). -/
structure StatusReport where
  daqError : DaqError
  sensorError : SensorError
  overloaded : List Channel
  multiplicity : Multiplicity
  sensorIndex : SensorIndex
deriving DecidableEq, Repr

/-- One scaled force triple, three binary64 patterns (R18 `RD.F[s]`). -/
structure Force where
  x : F64
  y : F64
  z : F64
deriving DecidableEq, Repr

/-- A Reading (R18). `raw` has `NS` samples; `force` is one triple for compact and extended and four for multi;
`torque` is there for extended only (a field absent for a variant holds no value). -/
structure Reading where
  count : Half
  status : Half
  raw : List Half
  force : List Force
  torque : Option Triple
  checksum : Half
  checksumValid : Bool
deriving DecidableEq, Repr

/-- What a free-standing copy of a pure unit answers (R55, R76). -/
inductive Answer where
  | cfgframe (frame : List Byte)
  | statdec (report : StatusReport)
  | daq (e : DaqError)
  | sen (e : SensorError)
  | ovld (axes : List Channel)
  | mult (m : Multiplicity)
  | sidx (i : SensorIndex)
  | noerr (b : Bool)
  | csumIn (sum : Half)
  | csumValid (b : Bool)
  | csumOut (sum : Half)
  | scale (v : F64)
deriving DecidableEq, Repr

/-- One move of the environment or one turn of the block (R53 (e), R58): the next entry of `State.sched` says who
moves. With no entry left the block moves. -/
inductive Turn where
  /-- The block takes its enabled step, or waits. -/
  | block
  /-- The host presents a request. -/
  | host (r : Request)
  /-- The transport appends a byte to `RXQ`. -/
  | arrive (b : Byte)
  /-- The transport becomes ready for one `TxPush`. -/
  | accept
  /-- The transport fails. -/
  | fail
  /-- From now on the transport's discard leaves the newest `n` bytes of `RXQ` (R46's alternative, U2). -/
  | flushKeeps (n : Nat)
  /-- Reset, sampling a strap; `reopened` says that the platform opened the transport before releasing it (R200, R204). -/
  | reset (strap : Option Variant) (reopened : Bool)
deriving DecidableEq, Repr

/-- The machine's state. -/
structure State where
  /-- `VARIANT` (R11); `none` is code 3, not a variant. -/
  variant : Option Variant
  /-- `FSM` (R12). -/
  fsm : Fsm
  /-- `OP` (R13). -/
  op : Op
  /-- `DRAIN` (R14). -/
  drain : Bool
  /-- `DRAINPH` (R14). -/
  drainPh : DrainPh
  /-- `MIDX`, 0 to 4 (R15). -/
  midx : Nat
  /-- `BIDX`, 0 to `BLEN` (R16). -/
  bidx : Nat
  /-- `TXIDX`, 0 to 9 (R16). -/
  txidx : Nat
  /-- `PBUF[0..29]` (R17). -/
  pbuf : List Byte
  /-- `RD` (R18). -/
  rd : Reading
  /-- `RDV` (R19). -/
  rdv : Bool
  /-- `CFGOUT[0..8]` (R20). -/
  cfgout : List Byte
  /-- The model's own: a valid CFGENC has written `CFGOUT` since reset (R20, R30, log entry 3). -/
  cfgoutWritten : Bool
  /-- `OUTCOME` (R24). -/
  outcome : Ending
  /-- `LINKDOWN` (R24). -/
  linkdown : Bool
  /-- The strobe `done` (R24), 1 in the state right after the step that strobes it. -/
  done : Bool
  /-- The strobe `rd_valid` (R22), likewise. -/
  rdValid : Bool
  /-- `OUT`, the trace of emitted Readings (R22). -/
  out : List Reading
  /-- `RXQ`, oldest first (R26). -/
  rxq : List Byte
  /-- `TXQ`, oldest first (R27). -/
  txq : List Byte
  /-- `TFAIL` (R28). -/
  tfail : Bool
  /-- `CUR` (R25). -/
  cur : Nat
  /-- `tx_ready`: the transport takes the next `TxPush` (R47, R58). -/
  txReady : Bool
  /-- The model's own: how many of the newest bytes the transport's discard leaves (R46, log entry 8). -/
  flushKeep : Nat
  /-- The model's own: the moves still to come, next first (R53, R58, log entry 7). -/
  sched : List Turn
  /-- The model's own: what copies of the pure units have answered, oldest first (log entry 5). -/
  answers : List Answer
deriving DecidableEq, Repr

/-- The reasons a step faults. There are none: an error of an operation is a next state (R184, R185), and what R19 calls
a fault, a host read of a register without a value, is reported in the answer (`HostAnswer.fault`) and stops nothing. -/
inductive Fault where
deriving DecidableEq, Repr

/-- Why a step has no meaning. -/
inductive Refusal where
  /-- The instruction has no meaning yet. Raised by an arm of `exec` only. Safe. -/
  | notModelled (mnemonic : String)
  /-- Bytes presented to a unit that are no operand of it (R129, U1: a wrong length is refused; R73: another header).
  Raised by a step that decodes them; a reserved command word is not this (R187). Safe. -/
  | undecodable (why : Reject)
  /-- CSUM.IN or CSUM.VALID given a body of fewer than two bytes (R90), which decoding already rejects. Raised by their
  meanings on an ill-formed instruction. Safe. -/
  | shortBody
deriving DecidableEq, Repr

/-- A register the host can read (R10, decision D29). Nothing else is readable, and nothing is writable except by a command. -/
inductive HostReg where
  | rd
  | rdv
  | sr
  | cfgout
  | outcome
  | linkdown
  | fsm
  | op
  | variant
deriving DecidableEq, Repr

/-- What stands in a register that the host reads. -/
inductive HostValue where
  | reading (r : Reading)
  | report (r : StatusReport) (noErrors : Bool)
  | frame (bs : List Byte)
  | flag (b : Bool)
  | code (c : BitVec 2)
deriving DecidableEq, Repr

/-- The answer to a host read: what stands in the register, and whether the read is the fault of R19, R30 and U12,
because the register holds no value yet. Every register has its reset value, so the read stops nothing; where `fault` is
set, `value` is the value of log entry 2 and not the spec's (DESIGN CHOICE, unsafe, log entry 21). -/
structure HostAnswer where
  value : HostValue
  fault : Bool
deriving DecidableEq, Repr

/-- What a pop answers (R43). -/
inductive Pop where
  /-- `TFAIL = 1`: `TransportError`. -/
  | failed
  /-- `RXQ` is empty: the block waits. -/
  | hold
  /-- The oldest byte, and the state without it. -/
  | byte (b : Byte) (s : State)
deriving DecidableEq, Repr

/-- What a push answers (R47). -/
inductive Push where
  /-- `TFAIL = 1`: `TransportError`. -/
  | failed
  /-- The transport is not ready: the block waits. -/
  | hold
  /-- The state with the byte appended. -/
  | pushed (s : State)
deriving DecidableEq, Repr

/-- The step rules of R150: at most one is enabled in any state. -/
inductive Rule where
  /-- No rule is enabled: the block is quiescent (or in a combination that no rule speaks of). -/
  | quiet
  /-- R153. -/
  | drainCheck (v : Variant)
  /-- R154. -/
  | drainFlush
  /-- R155. -/
  | search (v : Variant)
  /-- R157. -/
  | body
  /-- R158. -/
  | decode (v : Variant)
  /-- R160. -/
  | loopTest (v : Variant)
  /-- R144. -/
  | send
  /-- R145. -/
  | complete
deriving DecidableEq, Repr

/-- What `RD` holds before the first Reading: the spec gives its fields no value and marks them with `RDV = 0` (R30);
every field that `v` has is zero here (DESIGN CHOICE, unsafe, log entry 2), in the shape that `v` selects (R18). -/
def Reading.zero (v : Variant) : Reading :=
  { count := 0
    status := 0
    raw := List.replicate (ns v) 0
    force := List.replicate (lanes v) { x := 0, y := 0, z := 0 }
    torque := if v = .extended then some { x := 0, y := 0, z := 0 } else none
    checksum := 0
    checksumValid := false }

/-- `RD` right after a reset that samples `strap`. Code 3 selects none of R18's shapes, so there `RD` has no indexed field
and its common ones are zero (DESIGN CHOICE, unsafe, log entry 2). -/
def Reading.blank : Option Variant → Reading
  | some v => .zero v
  | none =>
    { count := 0, status := 0, raw := [], force := [], torque := none, checksum := 0, checksumValid := false }

/-- The state right after a reset that samples `strap` (R30, R200). The transport's part, which reset does not touch
(R201), starts empty, not failed and not ready (log entry 2). -/
def State.resetWith (strap : Option Variant) : State :=
  { variant := strap
    fsm := .idle
    op := .none
    drain := false
    drainPh := .no
    midx := 0
    bidx := 0
    txidx := 0
    pbuf := List.replicate 30 0
    rd := .blank strap
    rdv := false
    cfgout := List.replicate 9 0
    cfgoutWritten := false
    outcome := .ok
    linkdown := false
    done := false
    rdValid := false
    out := []
    rxq := []
    txq := []
    tfail := false
    cur := 0
    txReady := false
    flushKeep := 0
    sched := []
    answers := [] }

/-- The machine right after reset. -/
def State.reset : State := State.resetWith Config.strap

end Sys2Proof.Machine
end

