-- ==== Sys2Proof/Machine/Ops.lean ====
section
/-! DEFINITION. The shared operations: the transport's primitives (spec/20_memory.md R42 to R47), the transport's and
the platform's own moves (R58, R200), command admission and refusal, and what raising an error does
(spec/60_exceptions.md R184 to R187). There is no return from an exception (R188). -/

namespace Sys2Proof.Machine

/-! ### The receive and transmit streams -/

/-- `RxAvail()` (R42). -/
def rxAvail (s : State) : Nat := s.rxq.length

/-- `RxPop()` (R43): the failure is tested before emptiness (R186). -/
def rxPop (s : State) : Pop :=
  if s.tfail then .failed
  else
    match s.rxq with
    | [] => .hold
    | b :: q => .byte b { s with rxq := q, cur := s.cur + 1 }

/-- What a discard leaves of a queue: its newest `keep` bytes (R46; nothing where `keep` is 0). -/
def afterFlush (keep : Nat) (q : List Byte) : List Byte := q.drop (q.length - keep)

/-- `RxFlush()` (R46): nothing where the transport has failed; otherwise the queue is discarded and `CUR` grows by the
number of bytes dropped. -/
def rxFlush (s : State) : State :=
  if s.tfail then s
  else { s with rxq := afterFlush s.flushKeep s.rxq, cur := s.cur + (s.rxq.length - s.flushKeep) }

/-- `TxPush(b)` (R47); the transport is ready for one push at a time (R58; DEDUCED, log entry 20). -/
def txPush (b : Byte) (s : State) : Push :=
  if s.tfail then .failed
  else if s.txReady then .pushed { s with txq := s.txq ++ [b], txReady := false }
  else .hold

/-! ### The moves of the transport and of the platform -/

/-- `arrive(b)` (R58). -/
def arrive (b : Byte) (s : State) : State := { s with rxq := s.rxq ++ [b] }

/-- `accept` (R58). -/
def accept (s : State) : State := { s with txReady := true }

/-- `fail` (R58): nothing in the block clears `TFAIL` (R28). -/
def fail (s : State) : State := { s with tfail := true }

/-- The transport changes how much its discard leaves (R46's alternative). -/
def setFlushKeep (n : Nat) (s : State) : State := { s with flushKeep := n }

/-- Reset (R200, R201, R204): the block's registers take their reset values, the transport keeps its queues, and
`TFAIL` is 0 after it exactly if the platform reopened the transport or it had not failed (R30, R204; log entry 13). -/
def resetBlock (strap : Option Variant) (reopened : Bool) (s : State) : State :=
  { State.resetWith strap with
    rxq := s.rxq
    txq := s.txq
    tfail := s.tfail && !reopened
    txReady := s.txReady
    flushKeep := s.flushKeep
    sched := s.sched }

/-! ### Ends of operations, errors and refusal -/

/-- The end of an operation: `OP`, `OUTCOME` and the strobe `done` in one step (R24). -/
def endOp (e : Ending) (s : State) : State := { s with op := .none, outcome := e, done := true }

/-- Where `FSM` stands after a transport failure (R185). -/
def fsmAfterFailure : Fsm → Fsm
  | .idle => .idle
  | .synchronizing => .idle
  | .bodyPending => .idle
  | .decoded => .decoded

/-- `raise TransportError` (R185). -/
def raiseTransportError (s : State) : State :=
  { endOp .transportError s with linkdown := true, fsm := fsmAfterFailure s.fsm, drainPh := .no }

/-- `raise ConfigurationError` (R184): `OP` is `None` already. -/
def raiseConfigurationError (s : State) : State := { s with outcome := .configurationError, done := true }

/-- The part of R187's condition that does not look at the command: `OP = None`, `LINKDOWN = 0`, `VARIANT` is not 3. -/
def admitted (s : State) : Bool := s.op == .none && !s.linkdown && s.variant.isSome

/-- What happens to a command that is not admitted (R187): `Refused` while quiescent, ignored while an operation
runs (a next state and not a refusal of the model: DESIGN CHOICE, unsafe, log entry 9). -/
def refuseCommand (s : State) : State :=
  if s.op = .none then { s with outcome := .refused, done := true } else s

/-- What happens to bytes that no instruction has: a reserved command word is a command not admitted (R74, R187); any
other is refused by name (R129, U1). -/
def rejectRequest (p : Port) (why : Reject) (s : State) : Host.Outcome State Fault Refusal :=
  if p = .cmd ∧ why = .reservedOpcode then .next (refuseCommand s) else .refused (.undecodable why)

/-! ### Results -/

/-- The strobes last one step (R22, R24; DEDUCED, log entry 11). -/
def clearStrobes (s : State) : State := { s with done := false, rdValid := false }

/-- `RD <- r; RDV <- 1; emit(r)` (R22, R158). -/
def emit (r : Reading) (s : State) : State :=
  { s with rd := r, rdv := true, rdValid := true, out := s.out ++ [r] }

/-- A copy of a pure unit delivers its result; no register of the block changes (R55, R107). -/
def answer (a : Answer) (s : State) : State := { s with answers := s.answers ++ [a] }

/-- The next turn is taken off the schedule. -/
def withSched (q : List Turn) (s : State) : State := { s with sched := q }

/-! ### The codes a host reads (R11 to R13, R24) -/

/-- The 2-bit code of `FSM` (R12). -/
def fsmCode : Fsm → BitVec 2
  | .idle => 0
  | .synchronizing => 1
  | .bodyPending => 2
  | .decoded => 3

/-- The 2-bit code of `OP` (R13). -/
def opCode : Op → BitVec 2
  | .none => 0
  | .cfgEnc => 1
  | .read1 => 2
  | .readAll => 3

/-- The 2-bit code of `DRAINPH` (R14). -/
def drainPhCode : DrainPh → BitVec 2
  | .no => 0
  | .check => 1
  | .flush => 2

/-- The 2-bit code of `OUTCOME` (R24, R180). -/
def outcomeCode : Ending → BitVec 2
  | .ok => 0
  | .configurationError => 1
  | .transportError => 2
  | .refused => 3

end Sys2Proof.Machine
end

