-- ==== Sys2Proof/Machine/Operands.lean ====
section
/-! DEFINITION. Operand forms: binary64 conversion, multiplication and division (spec/00_scope.md R7), the three scale
constants and the scaling of a raw sample (spec/42_packet_parser.md R120 to R122), and the validation of the
configuration selectors (spec/43_config_encoder.md R141). -/

namespace Sys2Proof.Machine

/-! ### binary64, to nearest, ties to even -/

/-- `num / den` as an integer, to nearest, ties to even. -/
def nearestEven (num den : Nat) : Nat :=
  if den < 2 * (num % den) ∨ (2 * (num % den) = den ∧ (num / den) % 2 = 1) then num / den + 1 else num / den

/-- Whether `2 ^ l ≤ num / den`. -/
def atLeastPow2 (num den : Nat) (l : Int) : Bool := den * 2 ^ l.toNat ≤ num * 2 ^ (-l).toNat

/-- The largest `e` with `2 ^ e ≤ num / den`, for positive arguments. -/
def floorLog2 (num den : Nat) : Int :=
  if atLeastPow2 num den ((num.log2 : Int) - den.log2) then (num.log2 : Int) - den.log2
  else (num.log2 : Int) - den.log2 - 1

/-- The exponent of the last place of the binary64 value nearest `num / den`: 52 below the leading bit, and never below
that of the subnormals. -/
def ulpExp (num den : Nat) : Int := max (floorLog2 num den) (-1022) - 52

/-- The 63 bits below the sign of the binary64 value nearest to `num / den` (R7 `fmul`, `fdiv`: "rounded to nearest,
ties to even"). The significand's leading bit, and a carry out of rounding, add to the exponent field. -/
def roundMagnitude (num den : Nat) : Nat :=
  if num = 0 then 0
  else
    min ((ulpExp num den + 1074).toNat * 2 ^ 52
          + nearestEven (num * 2 ^ (-ulpExp num den).toNat) (den * 2 ^ (ulpExp num den).toNat))
      (2047 * 2 ^ 52)

/-- A binary64 pattern from a sign and the 63 bits below it. -/
def f64Pack (neg : Bool) (magnitude : Nat) : F64 := BitVec.ofBool neg ++ BitVec.ofNat 63 magnitude

/-- The sign bit. -/
def f64Sign (a : F64) : Bool := a.getLsbD 63

/-- The 63 bits below the sign. -/
def f64Magnitude (a : F64) : Nat := (a.extractLsb' 0 63).toNat

/-- The significand of a finite value as an integer. -/
def f64Significand (a : F64) : Nat :=
  if f64Magnitude a / 2 ^ 52 = 0 then f64Magnitude a else 2 ^ 52 + f64Magnitude a % 2 ^ 52

/-- The power of two that the significand of a finite value counts. -/
def f64Exp (a : F64) : Int := max (f64Magnitude a / 2 ^ 52 : Nat) 1 - 1075

/-- The numerator of a finite value's magnitude as a fraction. -/
def f64Num (a : F64) : Nat := f64Significand a * 2 ^ (f64Exp a).toNat

/-- The denominator of a finite value's magnitude as a fraction. -/
def f64Den (a : F64) : Nat := 2 ^ (-f64Exp a).toNat

/-- `f64(n)` (R7). -/
def f64OfInt (n : Int) : F64 := f64Pack (n < 0) (roundMagnitude n.natAbs 1)

/-- `fmul(a, b)` of two finite values (R7). Infinities and NaN do not occur in the block (R122). -/
def fmul (a b : F64) : F64 :=
  f64Pack (f64Sign a != f64Sign b) (roundMagnitude (f64Num a * f64Num b) (f64Den a * f64Den b))

/-- `fdiv(a, b)` of two finite values, the second not zero (R7). -/
def fdiv (a b : F64) : F64 :=
  f64Pack (f64Sign a != f64Sign b) (roundMagnitude (f64Num a * f64Den b) (f64Den a * f64Num b))

/-! ### The scaling table -/

/-- `FX_SCALE`, `FY_SCALE`, `FZ_SCALE`: each the quotient of its two integers (R120). -/
def scaleConst : Axis → F64
  | .x => fdiv (f64OfInt 300) (f64OfInt 7925)
  | .y => fdiv (f64OfInt 300) (f64OfInt 8641)
  | .z => fdiv (f64OfInt 2000) (f64OfInt 6049)

/-- `SCALE_a(r) = fmul(f64(r), constant)`: one exact conversion, one rounded multiplication (R122). -/
def scaleSample (a : Axis) (r : Half) : F64 := fmul (f64OfInt r.toInt) (scaleConst a)

/-- A force triple scaled, each sample by the constant of its axis (R121, R126 to R128). -/
def scaleTriple (t : Triple) : Force :=
  { x := scaleSample .x t.x, y := scaleSample .y t.y, z := scaleSample .z t.z }

/-! ### The configuration operands -/

/-- The frame that two selectors and the zero request ask for; `none` where a selector is invalid (R141, R142). -/
def frameOf (speedSel filterSel : BitVec 3) (zero : Bool) : Option (List Byte) :=
  match speedOfSel speedSel, filterOfSel filterSel with
  | some speed, some filter => some (cfgFrame speed filter zero)
  | _, _ => none

end Sys2Proof.Machine
end

