-- ==== Sys2Proof/Machine/Flags.lean ====
section
/-! DEFINITION. Every flag and status decoding: the checksum's validity bit (spec/40_checksum.md R90, R91), the
status-word decoder STATDEC and its fields (spec/41_status_decoder.md R100 to R105), the no-errors predicate (R108),
the port form of the report (R106), and the host's view of the registers (spec/10_state.md R10, decision D29). -/

namespace Sys2Proof.Machine

/-! ### Checksums -/

/-- `CSUM.IN(H, B)`: every byte of the header and every byte of the body but its last two (R90). -/
def checksumIn (header body : List Byte) : Half :=
  BitVec.ofNat 16 (byteSum header + byteSum (body.take (body.length - 2)))

/-- The received field: the last two bytes of the body, big-endian (R91). -/
def receivedChecksum (body : List Byte) : Option Half :=
  match body.drop (body.length - 2) with
  | [h, l] => some (be16 h l)
  | _ => none

/-- `CSUM.VALID(H, B)`: all 16 bits are compared (R91). -/
def checksumOk (header body : List Byte) : Bool := receivedChecksum body == some (checksumIn header body)

/-! ### The status word -/

/-- `DAQ(c)` (R101). -/
def daqError (c : BitVec 3) : DaqError :=
  match c.toNat with
  | 0 => .noError
  | 1 => .daqError
  | 2 => .commError
  | _ => .reserved

/-- `SEN(c)` (R102). -/
def sensorError (c : BitVec 3) : SensorError :=
  match c.toNat with
  | 0 => .noError
  | 1 => .notDetected
  | 2 => .failure
  | 4 => .temperatureError
  | _ => .reserved

/-- The axes in the order of R103 with their places among the six flags `w[9:4]`. -/
def channelBits : List (Nat × Channel) := [(5, .fx), (4, .fy), (3, .fz), (2, .tx), (1, .ty), (0, .tz)]

/-- `OVLD`: the axes whose flag is set, in order (R103). -/
def overloadedAxes (flags : BitVec 6) : List Channel :=
  (channelBits.filter fun c => flags.getLsbD c.1).map Prod.snd

/-- `MULT(b)` (R104). -/
def multiplicityOf (b : Bool) : Multiplicity := if b then .multiple else .single

/-- `SIDX(c)` (R105). -/
def sensorIndexOf (c : BitVec 3) : SensorIndex :=
  match c.toNat with
  | 0 => .none
  | 1 => .one
  | 2 => .two
  | 3 => .three
  | 4 => .four
  | _ => .reserved

/-- `STATDEC(w)`: five fields decoded independently (R100). -/
def statusReport (w : Half) : StatusReport :=
  { daqError := daqError (w.extractLsb' 13 3)
    sensorError := sensorError (w.extractLsb' 10 3)
    overloaded := overloadedAxes (w.extractLsb' 4 6)
    multiplicity := multiplicityOf (w.getLsbD 3)
    sensorIndex := sensorIndexOf (w.extractLsb' 0 3) }

/-- `NOERR(w)`: the word is zero, exactly (R108, R109). -/
def noErrors (w : Half) : Bool := w == 0

/-! ### The port form of the report (R106) -/

/-- `SR.daq_error`. -/
def daqCode : DaqError → BitVec 2
  | .noError => 0
  | .daqError => 1
  | .commError => 2
  | .reserved => 3

/-- `SR.sensor_error`. -/
def sensorCode : SensorError → BitVec 3
  | .noError => 0
  | .notDetected => 1
  | .failure => 2
  | .temperatureError => 3
  | .reserved => 4

/-- `SR.overloaded`: bit 5 Fx down to bit 0 Tz. -/
def overloadCode (axes : List Channel) : BitVec 6 :=
  BitVec.ofBool (axes.contains .fx) ++ BitVec.ofBool (axes.contains .fy) ++ BitVec.ofBool (axes.contains .fz)
    ++ BitVec.ofBool (axes.contains .tx) ++ BitVec.ofBool (axes.contains .ty) ++ BitVec.ofBool (axes.contains .tz)

/-- `SR.multiplicity`. -/
def multiplicityCode : Multiplicity → BitVec 1
  | .single => 0
  | .multiple => 1

/-- `SR.sensor_index`. -/
def sensorIndexCode : SensorIndex → BitVec 3
  | .none => 0
  | .one => 1
  | .two => 2
  | .three => 3
  | .four => 4
  | .reserved => 5

/-! ### What the host can read (R10, D29) -/

/-- `SR`: the decoder wired to `RD.status` (R21, R111). -/
def State.sr (s : State) : StatusReport := statusReport s.rd.status

/-- `SR.no_errors` (R108). -/
def State.srNoErrors (s : State) : Bool := noErrors s.rd.status

/-- A host read, without effect on the state. `RD` and `SR` hold no value while `RDV = 0` (R19), nor does `CFGOUT`
before the first valid CFGENC (R20, R30): such a read is answered with its fault set (log entry 21). -/
def hostRead (r : HostReg) (s : State) : HostAnswer :=
  match r with
  | .rd => { value := .reading s.rd, fault := !s.rdv }
  | .rdv => { value := .flag s.rdv, fault := false }
  | .sr => { value := .report s.sr s.srNoErrors, fault := !s.rdv }
  | .cfgout => { value := .frame s.cfgout, fault := !s.cfgoutWritten }
  | .outcome => { value := .code (outcomeCode s.outcome), fault := false }
  | .linkdown => { value := .flag s.linkdown, fault := false }
  | .fsm => { value := .code (fsmCode s.fsm), fault := false }
  | .op => { value := .code (opCode s.op), fault := false }
  | .variant => { value := .code (variantCode s.variant), fault := false }

end Sys2Proof.Machine
end

