-- ==== Sys2Proof/Machine/Csum.lean ====
section
/-! DEFINITION. The checksum unit as a free-standing copy: CSUM.IN, CSUM.VALID, CSUM.OUT (spec/40_checksum.md R90 to
R92). Inside the block the parser uses the same functions (Machine/Parse.lean) and so does the frame builder. -/

namespace Sys2Proof.Machine

/-- `CSUM.IN` (R90). -/
def execCsumIn (h : Byte) (body : List Byte) (s : State) : Host.Outcome State Fault Refusal :=
  if 2 ≤ body.length then .next (answer (.csumIn (checksumIn (hdrOf h) body)) s) else .refused .shortBody

/-- `CSUM.VALID` (R91). `RD.checksum_valid` is written "by the decode step only". -/
def execCsumValid (h : Byte) (body : List Byte) (s : State) : Host.Outcome State Fault Refusal :=
  if 2 ≤ body.length then .next (answer (.csumValid (checksumOk (hdrOf h) body)) s) else .refused .shortBody

/-- `CSUM.OUT` (R92). -/
def execCsumOut (speedC filterC zeroF : Byte) (s : State) : Host.Outcome State Fault Refusal :=
  .next (answer (.csumOut (checksumOut (cfgPrefix speedC filterC zeroF))) s)

end Sys2Proof.Machine
end

