-- ==== Sys2Proof/Machine/Cfgenc.lean ====
section
/-! DEFINITION. The configuration-frame encoder (spec/43_config_encoder.md): the acceptance step of CFGENC (R140 to
R143), its send and completion steps (R144, R145), and CFGFRAME as a free-standing copy (R142). -/

namespace Sys2Proof.Machine

/-- The acceptance step of a valid CFGENC (R143): the whole frame is built before the first byte is pushed. -/
def acceptCfgenc (frame : List Byte) (s : State) : State :=
  { s with cfgout := frame, cfgoutWritten := true, txidx := 0, op := .cfgEnc }

/-- `CFGENC` (R140): refusal first, then validation before any I/O (R141, R186), then acceptance. -/
def execCfgenc (speedSel filterSel : BitVec 3) (zero : Bool) (s : State) : Host.Outcome State Fault Refusal :=
  if admitted s then
    match frameOf speedSel filterSel zero with
    | some frame => .next (acceptCfgenc frame s)
    | none => .next (raiseConfigurationError s)
  else .next (refuseCommand s)

/-- One send step (R144): the byte `CFGOUT[TXIDX]`. -/
def sendStep (s : State) : State :=
  match txPush (s.cfgout.getD s.txidx 0) s with
  | .failed => raiseTransportError s
  | .hold => s
  | .pushed t => { t with txidx := t.txidx + 1 }

/-- The completion step (R145). -/
def completeStep (s : State) : State := endOp .ok s

/-- `CFGFRAME` (R142): the frame its three operands ask for. -/
def execCfgframe (speed : Speed) (filter : Filter) (zero : Bool) (s : State) : Host.Outcome State Fault Refusal :=
  .next (answer (.cfgframe (cfgFrame speed filter zero)) s)

end Sys2Proof.Machine
end

