-- ==== Sys2Proof/Machine/Parse.lean ====
section
/-! DEFINITION. The packet parsers PARSE.C, PARSE.E, PARSE.M and SCALE (spec/42_packet_parser.md R121 to R130). A parser
is "run once per packet by the decode step of the framer": its meaning is that step (spec/44_frame_reader.md R158; DEDUCED, log entry 12). -/

namespace Sys2Proof.Machine

/-- The common part of the three parsers (R123): the fields as received, the samples kept raw, and the validity bit
computed over the constant header and the body (R124, R125). -/
def readingOf (v : Variant) (count status : Half) (samples : List Triple) (checksum : Half) (force : List Force)
    (torque : Option Triple) : Reading :=
  { count := count
    status := status
    raw := samples.flatMap tripleHalves
    force := force
    torque := torque
    checksum := checksum
    checksumValid := checksumOk (hdr v) (packetBody count status samples checksum) }

/-- What follows a decoded Reading (R158): a READ1 has ended, a READALL goes on with its loop test. -/
def afterReading (s : State) : State :=
  match s.op with
  | .read1 => endOp .ok s
  | .none => s
  | .cfgEnc => s
  | .readAll => s

/-- The decode step (R158): all of `RD` changes at once, whatever the checksum and the status say (R183). -/
def decodeStep (r : Reading) (s : State) : State := afterReading { emit r s with fsm := .decoded }

/-- `PARSE.C` (R126). -/
def execParseC (count status : Half) (f : Triple) (checksum : Half) (s : State) : Host.Outcome State Fault Refusal :=
  .next (decodeStep (readingOf .compact count status [f] checksum [scaleTriple f] none) s)

/-- `PARSE.E` (R127): the torque samples are "signed 16-bit, not scaled". -/
def execParseE (count status : Half) (f t : Triple) (checksum : Half) (s : State) : Host.Outcome State Fault Refusal :=
  .next (decodeStep (readingOf .extended count status [f, t] checksum [scaleTriple f] (some t)) s)

/-- `PARSE.M` (R128): four independent lanes. -/
def execParseM (count status : Half) (f0 f1 f2 f3 : Triple) (checksum : Half) (s : State) :
    Host.Outcome State Fault Refusal :=
  .next (decodeStep (readingOf .multi count status [f0, f1, f2, f3] checksum
    [scaleTriple f0, scaleTriple f1, scaleTriple f2, scaleTriple f3] none) s)

/-- `SCALE` as a free-standing copy (R122). -/
def execScale (a : Axis) (r : Half) (s : State) : Host.Outcome State Fault Refusal :=
  .next (answer (.scale (scaleSample a r)) s)

end Sys2Proof.Machine
end

