-- ==== Sys2Proof/Machine/Framer.lean ====
section
/-! DEFINITION. The packet framer (spec/44_frame_reader.md): the acceptance steps of READ1 and READALL (R151, R160), the
step rules R153 to R157 and R160, and which rule is enabled in a state (R150). -/

namespace Sys2Proof.Machine

/-- The acceptance step of READ1 (R151). -/
def acceptRead1 (d : Bool) (s : State) : State :=
  { s with op := .read1, drain := d, drainPh := if d then .check else .no, fsm := .synchronizing, midx := 0 }

/-- `READ1` (R151, R152, R187). -/
def execRead1 (d : Bool) (s : State) : Host.Outcome State Fault Refusal :=
  if admitted s then .next (acceptRead1 d s) else .next (refuseCommand s)

/-- The acceptance step of READALL (R160): `FSM` keeps its resting value. -/
def acceptReadall (s : State) : State := { s with op := .readAll, drain := false, drainPh := .no }

/-- `READALL` (R159, R160, R187). -/
def execReadall (s : State) : Host.Outcome State Fault Refusal :=
  if admitted s then .next (acceptReadall s) else .next (refuseCommand s)

/-- The drain check step (R153): strictly more than one packet. -/
def drainCheckStep (v : Variant) (s : State) : State :=
  { s with drainPh := if total v < rxAvail s then .flush else .no }

/-- The drain flush step (R154). -/
def drainFlushStep (s : State) : State := { rxFlush s with drainPh := .no }

/-- The new `MIDX` after a byte of the search (R155). -/
def matchNext (h : List Byte) (midx : Nat) (b : Byte) : Nat :=
  if h[midx]? = some b then midx + 1 else if h[0]? = some b then 1 else 0

/-- What the search does with a new `MIDX` (R155): a complete header starts the body. -/
def searchMove (m : Nat) (s : State) : State :=
  if m = 4 then { s with midx := m, fsm := .bodyPending, bidx := 0 } else { s with midx := m }

/-- The header search step (R155). -/
def searchStep (v : Variant) (s : State) : State :=
  match rxPop s with
  | .failed => raiseTransportError s
  | .hold => s
  | .byte b t => searchMove (matchNext (hdr v) t.midx b) t

/-- The body collection step (R157). -/
def bodyStep (s : State) : State :=
  match rxPop s with
  | .failed => raiseTransportError s
  | .hold => s
  | .byte b t => { t with pbuf := t.pbuf.set t.bidx b, bidx := t.bidx + 1 }

/-- The loop test of READALL (R160): at least one packet. -/
def loopTestStep (v : Variant) (s : State) : State :=
  if total v ≤ rxAvail s then { s with fsm := .synchronizing, midx := 0 } else endOp .ok s

/-- The rule that is enabled while a read is in progress under variant `v` (R150). -/
def enabledRead (v : Variant) (s : State) : Rule :=
  match s.fsm with
  | .idle => if s.op = .readAll then .loopTest v else .quiet
  | .decoded => if s.op = .readAll then .loopTest v else .quiet
  | .synchronizing =>
    match s.drainPh with
    | .no => .search v
    | .check => if s.op = .read1 then .drainCheck v else .quiet
    | .flush => .drainFlush
  | .bodyPending => if s.bidx < blen v then .body else if s.bidx = blen v then .decode v else .quiet

/-- The enabled rule of a read: a strap that is not a variant admits no operation (R187), so no rule speaks of it. -/
def enabledReadAt (s : State) : Rule :=
  match s.variant with
  | none => .quiet
  | some v => enabledRead v s

/-- The one step rule enabled in a state (R150: "at most one of them is enabled in any state"). -/
def enabledRule (s : State) : Rule :=
  match s.op with
  | .none => .quiet
  | .cfgEnc => if s.txidx < 9 then .send else if s.txidx = 9 then .complete else .quiet
  | .read1 => enabledReadAt s
  | .readAll => enabledReadAt s

/-- The bytes of the packet in the buffer: the header constant, not bytes kept from the stream, and the first `BLEN`
bytes of `PBUF` (R124, R158). -/
def bufferedPacket (v : Variant) (s : State) : List Byte := hdr v ++ s.pbuf.take (blen v)

end Sys2Proof.Machine
end

