-- ==== Sys2Proof/Machine/Statdec.lean ====
section
/-! DEFINITION. The status-word decoder and its field functions applied to a word of the host's choosing
(spec/41_status_decoder.md R100 to R108; decision D24: "also a pure function a model may apply to any word"). In the
block the same functions are wired to `RD.status` (`State.sr`). -/

namespace Sys2Proof.Machine

/-- `STATDEC` (R100). -/
def execStatdec (w : Half) (s : State) : Host.Outcome State Fault Refusal := .next (answer (.statdec (statusReport w)) s)

/-- `DAQ` (R101). -/
def execDaq (c : BitVec 3) (s : State) : Host.Outcome State Fault Refusal := .next (answer (.daq (daqError c)) s)

/-- `SEN` (R102). -/
def execSen (c : BitVec 3) (s : State) : Host.Outcome State Fault Refusal := .next (answer (.sen (sensorError c)) s)

/-- `OVLD` (R103). -/
def execOvld (flags : BitVec 6) (s : State) : Host.Outcome State Fault Refusal :=
  .next (answer (.ovld (overloadedAxes flags)) s)

/-- `MULT` (R104). -/
def execMult (b : Bool) (s : State) : Host.Outcome State Fault Refusal := .next (answer (.mult (multiplicityOf b)) s)

/-- `SIDX` (R105). -/
def execSidx (c : BitVec 3) (s : State) : Host.Outcome State Fault Refusal := .next (answer (.sidx (sensorIndexOf c)) s)

/-- `NOERR` (R108). -/
def execNoerr (w : Half) (s : State) : Host.Outcome State Fault Refusal := .next (answer (.noerr (noErrors w)) s)

end Sys2Proof.Machine
end

