-- ==== Sys2Proof/Machine/Dispatch.lean ====
section
/-! DEFINITION. What each instruction does: one arm per constructor. A host command does its acceptance step; the steps
of the operation it starts are the step rules of Machine/Block.lean. -/

namespace Sys2Proof.Machine

def exec (i : Instr) (s : State) : Host.Outcome State Fault Refusal :=
  match i with
  | .cfgenc speedSel filterSel zero => Sys2Proof.Machine.execCfgenc speedSel filterSel zero s
  | .read1 d => Sys2Proof.Machine.execRead1 d s
  | .readall => Sys2Proof.Machine.execReadall s
  | .parseC count status f checksum => Sys2Proof.Machine.execParseC count status f checksum s
  | .parseE count status f t checksum => Sys2Proof.Machine.execParseE count status f t checksum s
  | .parseM count status f0 f1 f2 f3 checksum => Sys2Proof.Machine.execParseM count status f0 f1 f2 f3 checksum s
  | .cfgframe speed filter zero _ => Sys2Proof.Machine.execCfgframe speed filter zero s
  | .statdec w => Sys2Proof.Machine.execStatdec w s
  | .daq c => Sys2Proof.Machine.execDaq c s
  | .sen c => Sys2Proof.Machine.execSen c s
  | .ovld flags => Sys2Proof.Machine.execOvld flags s
  | .mult b => Sys2Proof.Machine.execMult b s
  | .sidx c => Sys2Proof.Machine.execSidx c s
  | .noerr w => Sys2Proof.Machine.execNoerr w s
  | .csumIn h body => Sys2Proof.Machine.execCsumIn h body s
  | .csumValid h body => Sys2Proof.Machine.execCsumValid h body s
  | .csumOut sc fc zf => Sys2Proof.Machine.execCsumOut sc fc zf s
  | .scale a r => Sys2Proof.Machine.execScale a r s

end Sys2Proof.Machine
end

