-- ==== Sys2Proof/Machine/Block.lean ====
section
/-! DEFINITION. One turn of the machine: the block's enabled step rule (spec/44_frame_reader.md R150), a request on a
port, a move of the transport or of the platform (spec/20_memory.md R58), and how a table word is placed where the next
turn fetches it. -/

namespace Sys2Proof.Machine

/-- The decode step fetches the packet in the buffer and runs it (R158). -/
def runPacket (v : Variant) (s : State) : Host.Outcome State Fault Refusal :=
  match decode (.packet v) (bufferedPacket v s) with
  | .instr i => exec i s
  | .rejected why => .refused (.undecodable why)

/-- The block's turn: the enabled rule's step; where no rule is enabled the block waits (R43, R202),
which is a step that changes nothing (DESIGN CHOICE, safe, log entries 10 and 17). -/
def blockTurn (s : State) : Host.Outcome State Fault Refusal :=
  match enabledRule s with
  | .quiet => .next s
  | .drainCheck v => .next (drainCheckStep v s)
  | .drainFlush => .next (drainFlushStep s)
  | .search v => .next (searchStep v s)
  | .body => .next (bodyStep s)
  | .decode v => runPacket v s
  | .loopTest v => .next (loopTestStep v s)
  | .send => .next (sendStep s)
  | .complete => .next (completeStep s)

/-- The host presents a request: its bytes are decoded on its port and the instruction runs. -/
def present (r : Request) (s : State) : Host.Outcome State Fault Refusal :=
  match decode (.port r.port) r.bytes with
  | .instr i => exec i s
  | .rejected why => rejectRequest r.port why s

/-- One turn of the schedule. -/
def takeTurn (t : Turn) (s : State) : Host.Outcome State Fault Refusal :=
  match t with
  | .block => blockTurn s
  | .host r => present r s
  | .arrive b => .next (arrive b s)
  | .accept => .next (accept s)
  | .fail => .next (fail s)
  | .flushKeeps n => .next (setFlushKeep n s)
  | .reset strap reopened => .next (resetBlock strap reopened s)

/-- The next turn of the schedule; with none left, the block's. -/
def nextTurn (s : State) : Turn := s.sched.headD .block

/-- The state in which a turn is taken: the strobes of the step before are over and the turn is off the schedule. -/
def enterTurn (s : State) : State := clearStrobes (withSched s.sched.tail s)

/-- Which operation a placed packet belongs to: a read in progress, else a READ1. -/
def readingOp : Op → Op
  | .none => .read1
  | .cfgEnc => .read1
  | .read1 => .read1
  | .readAll => .readAll

/-- The state in which the next turn is the decode step of this packet (R158): the framer strapped for its variant, its
header matched, and its body in the buffer. -/
def placePacket (v : Variant) (bs : List Byte) (s : State) : State :=
  { s with
    variant := some v
    op := readingOp s.op
    fsm := .bodyPending
    drainPh := .no
    midx := 4
    bidx := blen v
    pbuf := bs.drop hlen ++ s.pbuf.drop (blen v)
    sched := .block :: s.sched }

/-- A table word placed where the next turn fetches it: a packet in the framer's buffer, any other word as the host's
next request. A packet word whose header is not the format's is none the framer can hold. -/
def placeWord (s : State) (nbits w : Nat) : State :=
  match tableSlot nbits w with
  | some (.port p, bs) => { s with sched := .host ⟨p, bs⟩ :: s.sched }
  | some (.packet v, bs) => if (afterPrefix (hdr v) bs).isSome then placePacket v bs s else s
  | none => s

end Sys2Proof.Machine
end

