-- ==== Sys2Proof/Machine/Step.lean ====
section
/-! DEFINITION. One step of the machine, and the placing of a table word before it. -/

namespace Sys2Proof.Machine

/-- One step: the next turn of the schedule is taken (spec/44_frame_reader.md R150, spec/20_memory.md R53, R58). -/
def step (s : State) : Host.Outcome State Fault Refusal := takeTurn (nextTurn s) (enterTurn s)

/-- `s` with the instruction of a table word stored where `step` fetches its next instruction. -/
def State.withFetchWord (s : State) (nbits w : Nat) : State := placeWord s nbits w

end Sys2Proof.Machine
end

