-- ==== Sys2Proof/Safety.lean ====
section
/-! DEFINITION. The terms statements are made in: the reference definitions of the spec that the machine's steps are
compared with (`read_until` of spec/20_memory.md R45, `PARSE` of spec/42_packet_parser.md R123, the rational value of a
binary64 pattern), and the invariant of the machine. -/

namespace Sys2Proof.Machine

/-! ### Reference definitions -/

/-- `read_until(pattern)` over a stream (R45): what follows the first occurrence of the pattern, `none` where it does
not occur. -/
def readUntil (pattern : List Byte) : List Byte → Option (List Byte)
  | [] => afterPrefix pattern []
  | b :: bs =>
    match afterPrefix pattern (b :: bs) with
    | some rest => some rest
    | none => readUntil pattern bs

/-- The big-endian field at byte `i` of a body (R64). -/
def fieldAt (body : List Byte) (i : Nat) : Half := be16 (body.getD i 0) (body.getD (i + 1) 0)

/-- `raw[k]` (R123): the field at `4 + 2k`. -/
def sampleAt (body : List Byte) (k : Nat) : Half := fieldAt body (4 + 2 * k)

/-- `F[s]` (R126, R128): the samples `3s`, `3s + 1`, `3s + 2`, each scaled by the constant of its axis. -/
def forceAt (body : List Byte) (s : Nat) : Force :=
  { x := scaleSample .x (sampleAt body (3 * s))
    y := scaleSample .y (sampleAt body (3 * s + 1))
    z := scaleSample .z (sampleAt body (3 * s + 2)) }

/-- `PARSE(v, HDR(v), B)` on any bytes, as R123 writes it, with no meaning for another length than `BLEN(v)` (R129,
U1, decision D25). -/
def parse (v : Variant) (body : List Byte) : Option Reading :=
  if body.length = blen v then
    some
      { count := fieldAt body 0
        status := fieldAt body 2
        raw := (List.range (ns v)).map (sampleAt body)
        force := (List.range (lanes v)).map (forceAt body)
        torque :=
          if v = .extended then some { x := sampleAt body 3, y := sampleAt body 4, z := sampleAt body 5 } else none
        checksum := fieldAt body (body.length - 2)
        checksumValid :=
          (byteSum (hdr v) + byteSum (body.take (body.length - 2))) % 65536
            == 256 * (body.getD (body.length - 2) 0).toNat + (body.getD (body.length - 1) 0).toNat }
  else none

/-- A Reading has the shape that `VARIANT` selects (R18): `NS` samples, one force triple or four, a torque triple for
extended only. -/
def Reading.HasShape (v : Variant) (r : Reading) : Prop :=
  r.raw.length = ns v ∧ r.force.length = lanes v ∧ (r.torque ≠ none ↔ v = .extended)

/-- The value of a finite binary64 pattern. -/
def f64Value (a : F64) : ℚ := (if f64Sign a then -1 else 1) * ((f64Num a : ℚ) / (f64Den a : ℚ))

/-- The unit in the last place of a finite binary64 pattern. -/
def f64Ulp (a : F64) : ℚ := (2 : ℚ) ^ f64Exp a

/-! ### The invariant -/

/-- What holds of every state the machine can reach, named part by part. -/
structure State.Inv (s : State) : Prop where
  /-- `FSM` rests while no read is in progress (R12). -/
  resting : s.op = .none ∨ s.op = .cfgEnc → s.fsm = .idle ∨ s.fsm = .decoded
  /-- A READ1 in progress is searching or collecting (R151 to R158). -/
  reading : s.op = .read1 → s.fsm = .synchronizing ∨ s.fsm = .bodyPending
  /-- No operation runs on a strap that is not a variant (R187). -/
  strapped : s.op ≠ .none → s.variant ≠ none
  /-- No operation runs on a failed link (R187). -/
  linkUp : s.op ≠ .none → s.linkdown = false
  /-- The drain is a phase of a searching READ1 that asked for it (R14, R151). -/
  draining : s.drainPh ≠ .no → s.op = .read1 ∧ s.fsm = .synchronizing ∧ s.drain = true
  /-- READALL reads with `drain_latest = false` (R160). -/
  noDrain : s.op = .readAll → s.drain = false
  /-- A search has not matched the whole header yet (R155). -/
  matching : s.fsm = .synchronizing → s.midx < 4
  /-- `MIDX` is 0 to 4 (R15). -/
  midxRange : s.midx ≤ 4
  /-- `BIDX` is at most `BLEN` while a body is collected (R16). -/
  collecting : ∀ v, s.variant = some v → s.fsm = .bodyPending → s.bidx ≤ blen v
  /-- `BIDX` is at most 30 (R16). -/
  bidxRange : s.bidx ≤ 30
  /-- `TXIDX` is 0 to 9 (R16). -/
  txidxRange : s.txidx ≤ 9
  /-- `PBUF` is 30 bytes (R17). -/
  pbufSize : s.pbuf.length = 30
  /-- `CFGOUT` is 9 bytes (R20). -/
  cfgoutSize : s.cfgout.length = 9
  /-- Every emitted Reading is `PARSE` of some body of the connection's variant: its validity bit is computed, its
  forces are scaled and its shape is the variant's (R18, R125, R158). -/
  emitted : ∀ r ∈ s.out, ∃ v body, s.variant = some v ∧ parse v body = some r
  /-- `RD` is the last emitted Reading, and `RDV` says that there is one (R18, R19, R22). -/
  latest : s.out.getLast? = if s.rdv then some s.rd else none
  /-- `RD` has the shape of the connection's variant, before its first write too (R18, R30). -/
  shaped : ∀ v, s.variant = some v → s.rd.HasShape v
  /-- A written `CFGOUT` is one of the 84 valid frames (R20, R148). -/
  frame : s.cfgoutWritten = true → ∃ speed filter zero, s.cfgout = cfgFrame speed filter zero
  /-- What is being sent has been built (R143). -/
  sending : s.op = .cfgEnc → s.cfgoutWritten = true
  /-- The bytes pushed so far are the last of `TXQ` (R144). -/
  sent : s.op = .cfgEnc → s.cfgout.take s.txidx <:+ s.txq

end Sys2Proof.Machine
end

