-- ==== Sys2Proof/Certificates/Slice0/Obligations.lean ====
section
/-! DEFINITION. The statements for the provers. Each docstring names the rule of spec/ it formalises, or says that it is
derived and from what. Where a statement gives a whole next state as `{ … with … }`, that equation is the instruction's
result, its frame (every field not named is unchanged, both streams included) and its completion at once.

Three kinds of clause are the model's choice and no rule's, wherever they stand: that a copy of a pure unit keeps its
result in `answers` (log entry 5), that a step takes its turn off `sched` (log entry 7), and that it lowers the strobes of
the step before (log entry 11). -/

open Sys2Proof Sys2Proof.Machine

/-! ### Encodings -/

/-- Decoding the bytes of a well-formed instruction gives it back, with every operand at every value (R61 to R72). -/
def Obligations.DecodeOfEncodeIsTheInstruction : Prop :=
  ∀ i : Instr, i.wellFormed = true → decode i.slot (encode i) = .instr i

/-- A packet is recognised exactly if it begins with the header of the connection's own variant and has its length
(R65, R73), and the bytes it was read from are its encoding: no bit of it is dropped. -/
def Obligations.PacketsAreRecognisedByOneHeader : Prop :=
  ∀ (v : Variant) (bs : List Byte),
    ((∃ i, decode (.packet v) bs = .instr i) ↔ bs.take 4 = hdr v ∧ bs.length = total v) ∧
    ∀ i, decode (.packet v) bs = .instr i → encode i = bs ∧ i.slot = .packet v

/-- A configuration frame that decodes is the encoding of what it decodes to. -/
def Obligations.FrameBytesAreTheirEncoding : Prop :=
  ∀ (bs : List Byte) (i : Instr), decode (.port .cfgframe) bs = .instr i → encode i = bs

/-- Every command word decodes by R72's table: the opcode is `cmd[15:12]`, the operands are the bits it names, and the
bits it calls ignored are ignored; no other opcode is an instruction (that the word's high byte comes first is log entry
16). A few words written out from the spec's tables decode
to the instructions they stand for: three command words of spec/95_test_vectors.md P1, P4 and P3, the compact packet of V1,
a frame of V20, the operands of CSUM.OUT. -/
def Obligations.WordsOfTheSpecDecode : Prop :=
  (∀ w : Half,
    (w.toNat / 4096 = 1 →
      decode (.port .cmd) (halfBytes w)
        = .instr (.cfgenc (w.extractLsb' 9 3) (w.extractLsb' 6 3) (w.getLsbD 5))) ∧
    (w.toNat / 4096 = 2 → decode (.port .cmd) (halfBytes w) = .instr (.read1 (w.getLsbD 11))) ∧
    (w.toNat / 4096 = 3 → decode (.port .cmd) (halfBytes w) = .instr .readall) ∧
    (w.toNat / 4096 = 0 ∨ 4 ≤ w.toNat / 4096 → ∀ i, decode (.port .cmd) (halfBytes w) ≠ .instr i)) ∧
  decode (.port .cmd) [0x17, 0x20] = .instr (.cfgenc 3 4 true) ∧
  decode (.port .cmd) [0x28, 0x00] = .instr (.read1 true) ∧
  decode (.port .cmd) [0x30, 0x00] = .instr .readall ∧
  decode (.packet .compact)
      [0xAA, 0x07, 0x08, 0x0A, 0x2D, 0x6A, 0x00, 0x00, 0xFF, 0xF7, 0xFF, 0xFB, 0x00, 0x07, 0x05, 0x51]
    = .instr (.parseC 11626 0 ⟨0xFFF7, 0xFFFB, 0x0007⟩ 1361) ∧
  decode (.port .cfgframe) [0xAA, 0x00, 0x32, 0x03, 0x64, 0x06, 0xFF, 0x02, 0x48]
    = .instr (.cfgframe .hz10 .hz1_5 true 584) ∧
  decode (.port .csumOut) [0xAA, 0x00, 0x32, 0x03, 0x0A, 0x04, 0x00] = .instr (.csumOut 0x0A 0x04 0x00)

/-! ### A step runs the decoded instruction -/

/-- When the next turn is a request whose bytes decode to `i`, the step is `exec i`; what the step adds is that the turn
is off the schedule and the strobes of the step before are over (`enterTurn`). -/
def Obligations.StepRunsThePresentedInstruction : Prop :=
  ∀ (s : State) (r : Request) (q : List Turn) (i : Instr),
    s.sched = .host r :: q → decode (.port r.port) r.bytes = .instr i →
    step s = exec i { s with sched := q, done := false, rdValid := false }

/-- When a read is in progress and the body is complete, the block's step is `exec` of the packet in the buffer: the
header constant and the first `BLEN` bytes of `PBUF` (R124, R158). -/
def Obligations.StepRunsTheBufferedPacket : Prop :=
  ∀ (s : State) (v : Variant) (i : Instr),
    nextTurn s = .block → s.variant = some v → (s.op = .read1 ∨ s.op = .readAll) → s.fsm = .bodyPending →
    s.bidx = blen v → decode (.packet v) (hdr v ++ s.pbuf.take (blen v)) = .instr i →
    step s = exec i { s with sched := s.sched.tail, done := false, rdValid := false }

/-- A table word placed with `withFetchWord` is what the very next step runs: whatever `decodeTableWord` reads from it.
What is placed besides is on the schedule alone (a request), or is the framer at its decode step (a packet). -/
def Obligations.PlacedWordRunsNext : Prop :=
  ∀ (s : State) (nbits w : Nat) (i : Instr), decodeTableWord nbits w = some i →
    ∃ t, step (s.withFetchWord nbits w) = exec i t ∧ t.sched = s.sched ∧ t.rxq = s.rxq ∧ t.txq = s.txq ∧
      t.out = s.out ∧ t.linkdown = s.linkdown ∧
      (∀ p, i.slot = .port p → t = { s with done := false, rdValid := false }) ∧
      (∀ v, i.slot = .packet v → t.variant = some v ∧ t.fsm = .bodyPending ∧ t.bidx = blen v ∧
        encode i = hdr v ++ t.pbuf.take (blen v))

/-! ### The checksum unit -/

/-- CSUM.IN (R90): the sum of the header's four bytes and of every body byte but the last two, modulo 65536; nothing but
the answer changes (the answer is kept where log entry 5 says). -/
def Obligations.CsumInIsTheSumOfTheCoveredBytes : Prop :=
  ∀ (h : Byte) (body : List Byte) (s : State), 2 ≤ body.length →
    ∃ c : Half, exec (.csumIn h body) s = .next { s with answers := s.answers ++ [.csumIn c] } ∧
      c.toNat = (0xAA + 0x07 + 0x08 + h.toNat + (body.dropLast.dropLast.map BitVec.toNat).sum) % 65536

/-- CSUM.VALID (R91): 1 exactly if the sum equals the big-endian field in the last two bytes, all 16 bits compared;
nothing but the answer changes (log entry 5). -/
def Obligations.CsumValidComparesWithTheLastTwoBytes : Prop :=
  ∀ (h : Byte) (covered : List Byte) (x y : Byte) (s : State),
    ∃ b : Bool, exec (.csumValid h (covered ++ [x, y])) s = .next { s with answers := s.answers ++ [.csumValid b] } ∧
      (b = true ↔
        (0xAA + 0x07 + 0x08 + h.toNat + (covered.map BitVec.toNat).sum) % 65536 = 256 * x.toNat + y.toNat)

/-- A body of fewer than two bytes is no operand of CSUM.IN or CSUM.VALID (R90 "of length `n >= 2`"): its bytes do not
decode, and the ill-formed instruction is refused by name. Derived: R90 gives no effect for it. -/
def Obligations.ShortBodiesAreRefused : Prop :=
  ∀ (h : Byte) (body : List Byte) (s : State), body.length < 2 →
    exec (.csumIn h body) s = .refused .shortBody ∧ exec (.csumValid h body) s = .refused .shortBody ∧
    decode (.port .csumIn) (0xAA :: 0x07 :: 0x08 :: h :: body) = .rejected .wrongLength ∧
    decode (.port .csumValid) (0xAA :: 0x07 :: 0x08 :: h :: body) = .rejected .wrongLength

/-- CSUM.OUT (R92): 223 and the three operand bytes, the reduction never taking effect, and its two bytes; nothing but
the answer changes (log entry 5). -/
def Obligations.CsumOutIsTheSumOfSevenBytes : Prop :=
  ∀ (sc fc zf : Byte) (s : State),
    ∃ c : Half, exec (.csumOut sc fc zf) s = .next { s with answers := s.answers ++ [.csumOut c] } ∧
      c.toNat = 223 + sc.toNat + fc.toNat + zf.toNat ∧
      ∃ hi lo : Byte, halfBytes c = [hi, lo] ∧ hi.toNat = c.toNat / 256 ∧ lo.toNat = c.toNat % 256

/-- What the incoming sum does not detect (R96): any reordering of the covered bytes, and any changes of them whose
total is a multiple of 65536, leave the sum and the validity bit as they were. -/
def Obligations.ReorderedBytesPassTheChecksum : Prop :=
  ∀ (header covered other : List Byte) (x y : Byte),
    (covered.Perm other ∨
      (65536 : ℤ) ∣ (covered.map BitVec.toNat).sum - (other.map BitVec.toNat).sum) →
    checksumIn header (covered ++ [x, y]) = checksumIn header (other ++ [x, y]) ∧
    checksumOk header (covered ++ [x, y]) = checksumOk header (other ++ [x, y])

/-- The sums of whole packets stay below 65536 (R94): at most 2745, 4281 and 7353, and never below the header's own
sum, so a packet whose checksum field is 0 or above 7353 is never valid. -/
def Obligations.PacketSumsAreBounded : Prop :=
  ∀ (v : Variant) (body : List Byte), body.length = blen v →
    (checksumIn (hdr v) body).toNat = byteSum (hdr v) + byteSum (body.take (blen v - 2)) ∧
    195 ≤ (checksumIn (hdr v) body).toNat ∧
    (checksumIn (hdr v) body).toNat
      ≤ (match v with
        | .compact => 2745
        | .extended => 4281
        | .multi => 7353)

/-! ### The status word -/

/-- DAQ, SEN, MULT and SIDX (R101, R102, R104, R105): the tables, code by code, and the bits of the word that each
reads; nothing but the answer changes (log entry 5). -/
def Obligations.StatusFieldTables : Prop :=
  ∀ s : State,
    (∀ c : BitVec 3, ∃ e, exec (.daq c) s = .next { s with answers := s.answers ++ [.daq e] } ∧
      (e = .noError ↔ c = 0) ∧ (e = .daqError ↔ c = 1) ∧ (e = .commError ↔ c = 2) ∧ (e = .reserved ↔ 3 ≤ c.toNat)) ∧
    (∀ c : BitVec 3, ∃ e, exec (.sen c) s = .next { s with answers := s.answers ++ [.sen e] } ∧
      (e = .noError ↔ c = 0) ∧ (e = .notDetected ↔ c = 1) ∧ (e = .failure ↔ c = 2) ∧
      (e = .temperatureError ↔ c = 4) ∧ (e = .reserved ↔ c = 3 ∨ 5 ≤ c.toNat)) ∧
    (∀ b : Bool, ∃ m, exec (.mult b) s = .next { s with answers := s.answers ++ [.mult m] } ∧
      (m = .multiple ↔ b = true) ∧ (m = .single ↔ b = false)) ∧
    (∀ c : BitVec 3, ∃ i, exec (.sidx c) s = .next { s with answers := s.answers ++ [.sidx i] } ∧
      (i = .none ↔ c = 0) ∧ (i = .one ↔ c = 1) ∧ (i = .two ↔ c = 2) ∧ (i = .three ↔ c = 3) ∧ (i = .four ↔ c = 4) ∧
      (i = .reserved ↔ 5 ≤ c.toNat)) ∧
    (∀ w : Half,
      decode (.port .daq) (halfBytes w) = .instr (.daq (w.extractLsb' 13 3)) ∧
      decode (.port .sen) (halfBytes w) = .instr (.sen (w.extractLsb' 10 3)) ∧
      decode (.port .mult) (halfBytes w) = .instr (.mult (w.getLsbD 3)) ∧
      decode (.port .sidx) (halfBytes w) = .instr (.sidx (w.extractLsb' 0 3)))

/-- OVLD (R103): the axes whose flag is set, in the fixed order and without repeats; the flags are bits 9 to 4 of the
word; nothing but the answer changes (log entry 5). -/
def Obligations.OverloadedAxesInOrder : Prop :=
  ∀ (flags : BitVec 6) (s : State),
    ∃ axes : List Channel, exec (.ovld flags) s = .next { s with answers := s.answers ++ [.ovld axes] } ∧
      axes.Sublist [.fx, .fy, .fz, .tx, .ty, .tz] ∧
      (.fx ∈ axes ↔ flags.getLsbD 5 = true) ∧ (.fy ∈ axes ↔ flags.getLsbD 4 = true) ∧
      (.fz ∈ axes ↔ flags.getLsbD 3 = true) ∧ (.tx ∈ axes ↔ flags.getLsbD 2 = true) ∧
      (.ty ∈ axes ↔ flags.getLsbD 1 = true) ∧ (.tz ∈ axes ↔ flags.getLsbD 0 = true) ∧
      ∀ w : Half, decode (.port .ovld) (halfBytes w) = .instr (.ovld (w.extractLsb' 4 6))

/-- STATDEC (R100): for every word the five fields of the report are what the five field functions answer to the same
word, each on its own port, and what `SR` shows while `RD.status` is that word; the decoder is total and changes nothing but
the answers (log entry 5). -/
def Obligations.StatdecIsItsFiveFields : Prop :=
  ∀ (w : Half) (s : State),
    ∃ r : StatusReport, exec (.statdec w) s = .next { s with answers := s.answers ++ [.statdec r] } ∧
      present ⟨.statdec, halfBytes w⟩ s = .next { s with answers := s.answers ++ [.statdec r] } ∧
      present ⟨.daq, halfBytes w⟩ s = .next { s with answers := s.answers ++ [.daq r.daqError] } ∧
      present ⟨.sen, halfBytes w⟩ s = .next { s with answers := s.answers ++ [.sen r.sensorError] } ∧
      present ⟨.ovld, halfBytes w⟩ s = .next { s with answers := s.answers ++ [.ovld r.overloaded] } ∧
      present ⟨.mult, halfBytes w⟩ s = .next { s with answers := s.answers ++ [.mult r.multiplicity] } ∧
      present ⟨.sidx, halfBytes w⟩ s = .next { s with answers := s.answers ++ [.sidx r.sensorIndex] } ∧
      (s.rd.status = w → s.sr = r)

/-- NOERR (R108): the word is zero, exactly; `SR.no_errors` is the same bit for `RD.status`; nothing but the
answer changes (log entry 5). -/
def Obligations.NoErrorsMeansTheWordIsZero : Prop :=
  ∀ (w : Half) (s : State),
    ∃ b : Bool, exec (.noerr w) s = .next { s with answers := s.answers ++ [.noerr b] } ∧ (b = true ↔ w = 0) ∧
      (s.rd.status = w → s.srNoErrors = b)

/-- The strict predicate coincides with "every field at its zero value" (derived: R109 draws it from R101 to R105). -/
def Obligations.NoErrorsIffEveryFieldIsZero : Prop :=
  ∀ w : Half, noErrors w = true ↔
    statusReport w
      = { daqError := .noError, sensorError := .noError, overloaded := [], multiplicity := .single, sensorIndex := .none }

/-- The port form of the report (R106), computed for every word. -/
def Obligations.StatusReportPortCodes : Prop :=
  ∀ w : Half,
    (daqCode (statusReport w).daqError).toNat = min (w.toNat / 8192) 3 ∧
    some (sensorCode (statusReport w).sensorError).toNat = [0, 1, 2, 4, 3, 4, 4, 4][w.toNat / 1024 % 8]? ∧
    overloadCode (statusReport w).overloaded = w.extractLsb' 4 6 ∧
    multiplicityCode (statusReport w).multiplicity = w.extractLsb' 3 1 ∧
    (sensorIndexCode (statusReport w).sensorIndex).toNat = min (w.toNat % 8) 5 ∧
    (noErrors w = true ↔ w = 0)

/-! ### Scaling -/

/-- The three constants and the source's example (derived: R120 and R122 draw the bit patterns from the quotients, and
the rounding to nearest, ties to even, is log entry 18). -/
def Obligations.ScaleConstantsHaveTheirBits : Prop :=
  scaleConst .x = 0x3FA361B751908E22 ∧ scaleConst .y = 0x3FA1C6959CC091FF ∧ scaleConst .z = 0x3FD52917FEFBFAC1 ∧
  scaleSample .x 0xFFF7 = 0xBFD5CDEE3BC29FE6

/-- SCALE (R122) answers `scaleSample` of its own axis and sample, whose value `ScaleConstantsHaveTheirBits` and
`ScaleIsTheNearestProduct` give: zero gives `+0.0`; every other sample gives a normal number with the sample's sign, so
negative zero, infinity, NaN and subnormals cannot occur; nothing but the answer changes (log entry 5). -/
def Obligations.ScaleGivesNormalNumbers : Prop :=
  ∀ (a : Axis) (r : Half) (s : State),
    ∃ v : F64, exec (.scale a r) s = .next { s with answers := s.answers ++ [.scale v] } ∧ v = scaleSample a r ∧
      (r = 0 → v = 0) ∧
      (r ≠ 0 → 0 < (v.extractLsb' 52 11).toNat ∧ (v.extractLsb' 52 11).toNat < 2047 ∧ v.getLsbD 63 = r.getLsbD 15)

/-- SCALE is one rounded multiplication by the axis's constant (derived: R122, with rounding to nearest, ties to even, as
log entry 18 takes it): the result is within half a unit in the last place of the exact product, and where it is exactly
half way the significand is even. -/
def Obligations.ScaleIsTheNearestProduct : Prop :=
  ∀ (a : Axis) (r : Half),
    2 * |f64Value (scaleSample a r) - (r.toInt : ℚ) * f64Value (scaleConst a)| ≤ f64Ulp (scaleSample a r) ∧
    (2 * |f64Value (scaleSample a r) - (r.toInt : ℚ) * f64Value (scaleConst a)| = f64Ulp (scaleSample a r) →
      f64Significand (scaleSample a r) % 2 = 0)

/-- `SCALE_a(-r) = -SCALE_a(r)` bit for bit, except at 0 and at -32768 (derived: V16). -/
def Obligations.ScaleIsOdd : Prop :=
  ∀ (a : Axis) (r : Half), r ≠ 0 → r ≠ 0x8000 → scaleSample a (-r) = scaleSample a r ^^^ 0x8000000000000000

/-! ### The parsers and the decode step -/

/-- The decode step writes `PARSE(VARIANT, HDR(VARIANT), PBUF[0..BLEN-1])` into `RD` (R158, R123): all of `RD` at once,
whatever the checksum and the status say; a READ1 ends, a READALL goes on; nothing else changes. Derived: that the turn
leaves the schedule is log entry 7, and that `done` is 0 after the step of a READALL is log entry 11. -/
def Obligations.DecodeStepWritesParseOfTheBuffer : Prop :=
  ∀ (s : State) (v : Variant), s.Inv → nextTurn s = .block → s.variant = some v → s.fsm = .bodyPending →
    s.bidx = blen v →
    ∃ r, parse v (s.pbuf.take (blen v)) = some r ∧
      (s.op = .read1 →
        step s = .next { s with
          rd := r, rdv := true, rdValid := true, out := s.out ++ [r], fsm := .decoded, op := .none, outcome := .ok,
          done := true, sched := s.sched.tail }) ∧
      (s.op = .readAll →
        step s = .next { s with
          rd := r, rdv := true, rdValid := true, out := s.out ++ [r], fsm := .decoded, done := false,
          sched := s.sched.tail })

/-- PARSE.C (R126) at the decode step of a READ1: every field of the Reading from the packet's fields. -/
def Obligations.ParseCompactWritesTheReading : Prop :=
  ∀ (count status x y z checksum : Half) (s : State), s.op = .read1 →
    ∃ valid : Bool,
      exec (.parseC count status ⟨x, y, z⟩ checksum) s = .next { s with
        rd := { count := count, status := status, raw := [x, y, z],
                force := [{ x := scaleSample .x x, y := scaleSample .y y, z := scaleSample .z z }],
                torque := none, checksum := checksum, checksumValid := valid }
        rdv := true, rdValid := true, fsm := .decoded, op := .none, outcome := .ok, done := true
        out := s.out ++ [{ count := count, status := status, raw := [x, y, z],
                           force := [{ x := scaleSample .x x, y := scaleSample .y y, z := scaleSample .z z }],
                           torque := none, checksum := checksum, checksumValid := valid }] } ∧
      (valid = true ↔
        195 + byteSum (halfBytes count ++ halfBytes status ++ halfBytes x ++ halfBytes y ++ halfBytes z)
          = checksum.toNat)

/-- PARSE.E (R127) at the decode step of a READ1: forces scaled, torques the raw samples. -/
def Obligations.ParseExtendedWritesTheReading : Prop :=
  ∀ (count status x y z tx ty tz checksum : Half) (s : State), s.op = .read1 →
    ∃ r : Reading,
      exec (.parseE count status ⟨x, y, z⟩ ⟨tx, ty, tz⟩ checksum) s = .next { s with
        rd := r, rdv := true, rdValid := true, fsm := .decoded, op := .none, outcome := .ok, done := true
        out := s.out ++ [r] } ∧
      r.count = count ∧ r.status = status ∧ r.checksum = checksum ∧ r.raw = [x, y, z, tx, ty, tz] ∧
      r.force = [{ x := scaleSample .x x, y := scaleSample .y y, z := scaleSample .z z }] ∧
      r.torque = some ⟨tx, ty, tz⟩ ∧
      (r.checksumValid = true ↔
        201 + byteSum ([count, status, x, y, z, tx, ty, tz].flatMap halfBytes) = checksum.toNat)

/-- PARSE.M (R128) at the decode step of a READ1: four lanes, each scaled by the same three constants. -/
def Obligations.ParseMultiWritesTheReading : Prop :=
  ∀ (count status checksum : Half) (f0 f1 f2 f3 : Triple) (s : State), s.op = .read1 →
    ∃ r : Reading,
      exec (.parseM count status f0 f1 f2 f3 checksum) s = .next { s with
        rd := r, rdv := true, rdValid := true, fsm := .decoded, op := .none, outcome := .ok, done := true
        out := s.out ++ [r] } ∧
      r.count = count ∧ r.status = status ∧ r.checksum = checksum ∧ r.torque = none ∧
      r.raw = [f0.x, f0.y, f0.z, f1.x, f1.y, f1.z, f2.x, f2.y, f2.z, f3.x, f3.y, f3.z] ∧
      r.force = [f0, f1, f2, f3].map (fun f =>
        { x := scaleSample .x f.x, y := scaleSample .y f.y, z := scaleSample .z f.z }) ∧
      (r.checksumValid = true ↔
        213 + byteSum ([count, status, f0.x, f0.y, f0.z, f1.x, f1.y, f1.z, f2.x, f2.y, f2.z, f3.x, f3.y, f3.z].flatMap
          halfBytes) = checksum.toNat)

/-- Outside a READ1 (in a READALL, R158) a parser writes the same Reading and no outcome. -/
def Obligations.ParseInsideReadallGoesOn : Prop :=
  ∀ (i : Instr) (v : Variant) (s : State), i.slot = .packet v → s.op = .readAll →
    ∃ r : Reading, parse v ((encode i).drop 4) = some r ∧
      exec i s = .next { s with rd := r, rdv := true, rdValid := true, out := s.out ++ [r], fsm := .decoded }

/-! ### The configuration-frame encoder -/

/-- CFGFRAME (R142, R146): for all 84 operand triples the answer is exactly 9 bytes, bytes 0 to 3 are `AA 00 32 03`,
bytes 4 to 6 are the codes of R68 to R70, and the last two are the sum of the first seven, high byte first; `AA` stands at
offset 0 only; nothing but the answer changes (log entry 5). -/
def Obligations.ConfigurationFrameProperty : Prop :=
  ∀ (speed : Speed) (filter : Filter) (zero : Bool) (k : Half) (s : State),
    ∃ f : List Byte, exec (.cfgframe speed filter zero k) s = .next { s with answers := s.answers ++ [.cfgframe f] } ∧
      f.length = 9 ∧ f.take 4 = [0xAA, 0x00, 0x32, 0x03] ∧
      [(Speed.stop, 0), (.hz1000, 1), (.hz333, 3), (.hz100, 10), (.hz30, 33), (.hz10, 100)].lookup speed
        = some (f.getD 4 0).toNat ∧
      [(Filter.off, 0), (.hz500, 1), (.hz150, 2), (.hz50, 3), (.hz15, 4), (.hz5, 5), (.hz1_5, 6)].lookup filter
        = some (f.getD 5 0).toNat ∧
      f.getD 6 0 = (if zero then 0xFF else 0x00) ∧
      (f.getD 7 0).toNat * 256 + (f.getD 8 0).toNat = ((f.take 7).map BitVec.toNat).sum % 65536 ∧
      (f.getD 7 0).toNat ≤ 2 ∧ 0xAA ∉ f.drop 1

/-- The acceptance step of a valid CFGENC (R143, R142): the whole frame in `CFGOUT` before any byte is pushed. -/
def Obligations.CfgencIsAccepted : Prop :=
  ∀ (s : State) (speedSel filterSel : BitVec 3) (zero : Bool) (speed : Speed) (filter : Filter),
    s.op = .none → s.linkdown = false → s.variant ≠ none →
    [Speed.stop, .hz1000, .hz333, .hz100, .hz30, .hz10][speedSel.toNat]? = some speed →
    [Filter.off, .hz500, .hz150, .hz50, .hz15, .hz5, .hz1_5][filterSel.toNat]? = some filter →
    exec (.cfgenc speedSel filterSel zero) s = .next { s with
      cfgout := cfgFrame speed filter zero, cfgoutWritten := true, txidx := 0, op := .cfgEnc }

/-- An invalid selector ends the admitted CFGENC at its acceptance step (R141, R184): nothing but the outcome and its
strobe changes, even where the transport has failed. -/
def Obligations.InvalidSelectorIsAConfigurationError : Prop :=
  ∀ (s : State) (speedSel filterSel : BitVec 3) (zero : Bool),
    s.op = .none → s.linkdown = false → s.variant ≠ none → (5 < speedSel.toNat ∨ 6 < filterSel.toNat) →
    exec (.cfgenc speedSel filterSel zero) s = .next { s with outcome := .configurationError, done := true }

/-- The send and completion steps (R144, R145): byte `TXIDX` of `CFGOUT` is pushed where the transport is ready, the
step waits where it is not, a failed transport ends the operation with what was pushed left pushed, and after nine bytes
the operation ends `Ok`. A push uses the transport's readiness up (log entry 20),
and that waiting is a step is the model's choice (log entry 10). -/
def Obligations.SendStepsPushTheFrameInOrder : Prop :=
  ∀ (s : State) (b : Byte), nextTurn s = .block → s.op = .cfgEnc →
    (s.cfgout[s.txidx]? = some b → s.txidx < 9 → s.tfail = false → s.txReady = true →
      step s = .next { s with
        txq := s.txq ++ [b], txReady := false, txidx := s.txidx + 1, sched := s.sched.tail, done := false,
        rdValid := false }) ∧
    (s.txidx < 9 → s.tfail = false → s.txReady = false →
      step s = .next { s with sched := s.sched.tail, done := false, rdValid := false }) ∧
    (s.txidx < 9 → s.tfail = true → (s.fsm = .idle ∨ s.fsm = .decoded) →
      step s = .next { s with
        outcome := .transportError, linkdown := true, op := .none, done := true, drainPh := .no, rdValid := false,
        sched := s.sched.tail }) ∧
    (s.txidx = 9 →
      step s = .next { s with
        op := .none, outcome := .ok, done := true, sched := s.sched.tail, rdValid := false })

/-- CFGENC as a whole (R140): with valid selectors, an admitted command, a working transport that becomes ready before
each push, it pushes exactly the nine bytes of the frame and ends `Ok`; it touches no framer register. One readiness for
each push, and none left after the last, is log entry 20. -/
def Obligations.CfgencSendsTheWholeFrame : Prop :=
  ∀ (s : State) (speedSel filterSel : BitVec 3) (zero : Bool) (speed : Speed) (filter : Filter) (q : List Turn),
    s.op = .none → s.linkdown = false → s.variant ≠ none → s.tfail = false →
    speedOfSel speedSel = some speed → filterOfSel filterSel = some filter →
    s.sched = .host ⟨.cmd, encode (.cfgenc speedSel filterSel zero)⟩
      :: ((List.replicate 9 [Turn.accept, Turn.block]).flatten ++ Turn.block :: q) →
    Host.Core.run Sys2Proof.core 20 s = .next { s with
      cfgout := cfgFrame speed filter zero, cfgoutWritten := true, txq := s.txq ++ cfgFrame speed filter zero,
      txidx := 9, txReady := false, outcome := .ok, done := true, rdValid := false, sched := q }

/-! ### Admission, refusal, errors -/

/-- A command word presented on the command port is admitted only if `OP = None`, `LINKDOWN = 0`, `VARIANT` is not 3 and
the opcode is 1, 2 or 3; otherwise it is refused while the block is quiescent and ignored while an operation runs
(R187's pseudocode, V40; that this is a next state and not a refusal is the model's choice, log entry 9). -/
def Obligations.CommandsNotAdmittedAreRefusedOrIgnored : Prop :=
  ∀ (s : State) (w : Half) (q : List Turn), s.sched = .host ⟨.cmd, halfBytes w⟩ :: q →
    (s.op ≠ .none ∨ s.linkdown = true ∨ s.variant = none ∨ (w.toNat / 4096 ≠ 1 ∧ w.toNat / 4096 ≠ 2 ∧ w.toNat / 4096 ≠ 3)) →
    (s.op = .none → step s = .next { s with outcome := .refused, done := true, rdValid := false, sched := q }) ∧
    (s.op ≠ .none → step s = .next { s with done := false, rdValid := false, sched := q })

/-- `raise TransportError` (R182, R185): a search, body or send step that finds the transport failed ends its operation;
the failing step moves no byte and emits no Reading. -/
def Obligations.TransportErrorEndsTheOperation : Prop :=
  ∀ (s : State) (v : Variant), nextTurn s = .block → s.variant = some v → s.tfail = true →
    ((s.op = .read1 ∨ s.op = .readAll) → s.fsm = .synchronizing → s.drainPh = .no →
      step s = .next { s with
        outcome := .transportError, linkdown := true, op := .none, done := true, fsm := .idle, drainPh := .no,
        rdValid := false, sched := s.sched.tail }) ∧
    ((s.op = .read1 ∨ s.op = .readAll) → s.fsm = .bodyPending → s.bidx < blen v →
      step s = .next { s with
        outcome := .transportError, linkdown := true, op := .none, done := true, fsm := .idle, drainPh := .no,
        rdValid := false, sched := s.sched.tail }) ∧
    (s.op = .cfgEnc → (s.fsm = .idle ∨ s.fsm = .decoded) → s.txidx < 9 →
      step s = .next { s with
        outcome := .transportError, linkdown := true, op := .none, done := true, drainPh := .no, rdValid := false,
        sched := s.sched.tail })

/-- A block that waits for the transport keeps all its state (R43, R194): a search or body step on an empty queue.
That waiting is a step is the model's choice (log entry 10). -/
def Obligations.WaitingKeepsTheState : Prop :=
  ∀ (s : State) (v : Variant), nextTurn s = .block → s.variant = some v → s.tfail = false → s.rxq = [] →
    (s.op = .read1 ∨ s.op = .readAll) →
    (s.fsm = .synchronizing ∧ s.drainPh = .no ∨ s.fsm = .bodyPending ∧ s.bidx < blen v) →
    step s = .next { s with done := false, rdValid := false, sched := s.sched.tail }

/-- After reset the block is quiescent and does nothing until a command arrives (R202): its own turn changes nothing. That
this turn is a step at all is the model's choice (log entry 10). -/
def Obligations.QuiescentBlockDoesNothing : Prop :=
  ∀ s : State, nextTurn s = .block → s.op = .none →
    step s = .next { s with done := false, rdValid := false, sched := s.sched.tail }

/-! ### The framer -/

/-- The acceptance step of READ1 (R151). -/
def Obligations.Read1IsAccepted : Prop :=
  ∀ (s : State) (d : Bool), s.op = .none → s.linkdown = false → s.variant ≠ none →
    exec (.read1 d) s = .next { s with
      op := .read1, drain := d, drainPh := if d then .check else .no, fsm := .synchronizing, midx := 0 }

/-- The acceptance step and the loop test of READALL (R160): the test is "at least one packet" and consumes nothing.
Derived: that the turn leaves the schedule is log entry 7, and that the strobes of the step before are down is log entry
11. -/
def Obligations.ReadallIsAcceptedAndTested : Prop :=
  ∀ (s : State) (v : Variant), s.variant = some v →
    (s.op = .none → s.linkdown = false →
      exec .readall s = .next { s with op := .readAll, drain := false, drainPh := .no }) ∧
    (nextTurn s = .block → s.op = .readAll → (s.fsm = .idle ∨ s.fsm = .decoded) →
      (total v ≤ s.rxq.length →
        step s = .next { s with
          fsm := .synchronizing, midx := 0, sched := s.sched.tail, done := false, rdValid := false }) ∧
      (s.rxq.length < total v →
        step s = .next { s with
          op := .none, outcome := .ok, done := true, sched := s.sched.tail, rdValid := false }))

/-- The drain (R153, R154): the check is strict and consumes nothing; the flush empties the queue (all of it, where the
transport's discard is exact: `flushKeep` is the model's, log entry 8) and moves the cursor by the bytes dropped. It is
made once per READ1: `DRAINPH` goes to `Flush` at a check step alone and to `Check` at the acceptance of a `READ1 1`
alone, so it never comes back from `No` within a READ1. -/
def Obligations.DrainChecksThenFlushesOnce : Prop :=
  (∀ (s : State) (v : Variant), nextTurn s = .block → s.variant = some v → s.op = .read1 → s.fsm = .synchronizing →
    (s.drainPh = .check → s.rxq.length ≤ total v →
      step s = .next { s with drainPh := .no, sched := s.sched.tail, done := false, rdValid := false }) ∧
    (s.drainPh = .check → total v < s.rxq.length →
      step s = .next { s with drainPh := .flush, sched := s.sched.tail, done := false, rdValid := false }) ∧
    (s.drainPh = .flush → s.tfail = false → s.flushKeep = 0 →
      step s = .next { s with
        drainPh := .no, rxq := [], cur := s.cur + s.rxq.length, sched := s.sched.tail, done := false,
        rdValid := false }) ∧
    (s.drainPh = .flush → s.tfail = true →
      step s = .next { s with drainPh := .no, sched := s.sched.tail, done := false, rdValid := false })) ∧
  (∀ s t : State, step s = .next t → t.drainPh ≠ s.drainPh →
    t.drainPh = .no ∨
    (s.drainPh = .check ∧ t.drainPh = .flush ∧ nextTurn s = .block ∧ s.op = .read1 ∧ s.fsm = .synchronizing ∧
      ∃ v, s.variant = some v ∧ total v < s.rxq.length) ∨
    (t.drainPh = .check ∧ s.op = .none ∧ t.op = .read1 ∧
      ∃ r, nextTurn s = .host r ∧ decode (.port r.port) r.bytes = .instr (.read1 true)))

/-- Whatever the transport's discard leaves, it is the newest bytes of the queue, and the cursor counts the others
(derived: the alternative that R46 admits, log entry 8). -/
def Obligations.FlushDropsAPrefix : Prop :=
  ∀ (s : State) (v : Variant), nextTurn s = .block → s.variant = some v → (s.op = .read1 ∨ s.op = .readAll) →
    s.fsm = .synchronizing → s.drainPh = .flush →
    ∃ dropped kept, s.rxq = dropped ++ kept ∧
      step s = .next { s with
        drainPh := .no, rxq := kept, cur := s.cur + dropped.length, sched := s.sched.tail, done := false,
        rdValid := false }

/-- One step of the header search (R155): three branches, and the step that completes the header starts the body. -/
def Obligations.SearchStepMatchesOneByte : Prop :=
  ∀ (s : State) (v : Variant) (b : Byte) (q : List Byte), nextTurn s = .block → s.variant = some v →
    (s.op = .read1 ∨ s.op = .readAll) → s.fsm = .synchronizing → s.drainPh = .no → s.tfail = false →
    s.rxq = b :: q → s.midx < 4 →
    ((hdr v)[s.midx]? = some b → s.midx < 3 →
      step s = .next { s with
        rxq := q, cur := s.cur + 1, midx := s.midx + 1, sched := s.sched.tail, done := false, rdValid := false }) ∧
    ((hdr v)[s.midx]? = some b → s.midx = 3 →
      step s = .next { s with
        rxq := q, cur := s.cur + 1, midx := 4, fsm := .bodyPending, bidx := 0, sched := s.sched.tail, done := false,
        rdValid := false }) ∧
    ((hdr v)[s.midx]? ≠ some b → b = 0xAA →
      step s = .next { s with
        rxq := q, cur := s.cur + 1, midx := 1, sched := s.sched.tail, done := false, rdValid := false }) ∧
    ((hdr v)[s.midx]? ≠ some b → b ≠ 0xAA →
      step s = .next { s with
        rxq := q, cur := s.cur + 1, midx := 0, sched := s.sched.tail, done := false, rdValid := false })

/-- One body step (R157): the byte goes to `PBUF[BIDX]`, whatever it is, and no other byte of the buffer changes. -/
def Obligations.BodyStepStoresOneByte : Prop :=
  ∀ (s : State) (v : Variant) (b : Byte) (q : List Byte), s.Inv → nextTurn s = .block → s.variant = some v →
    s.fsm = .bodyPending → s.op ≠ .none → s.bidx < blen v → s.tfail = false → s.rxq = b :: q →
    ∃ pbuf : List Byte,
      step s = .next { s with
        rxq := q, cur := s.cur + 1, pbuf := pbuf, bidx := s.bidx + 1, sched := s.sched.tail, done := false,
        rdValid := false } ∧
      pbuf.length = 30 ∧ pbuf[s.bidx]? = some b ∧ ∀ k, k ≠ s.bidx → pbuf[k]? = s.pbuf[k]?

/-- The search is `read_until` (R156, R45): it ends at the first occurrence of the header, with every byte up to and
including it consumed; where the header does not occur it consumes everything and searches on. -/
def Obligations.SearchEndsAtTheFirstHeader : Prop :=
  ∀ (s : State) (v : Variant), s.variant = some v → (s.op = .read1 ∨ s.op = .readAll) → s.fsm = .synchronizing →
    s.drainPh = .no → s.midx = 0 → s.tfail = false → s.sched = [] → s.done = false → s.rdValid = false →
    (∀ rest, readUntil (hdr v) s.rxq = some rest →
      Host.Core.run Sys2Proof.core (s.rxq.length - rest.length) s = .next { s with
        rxq := rest, cur := s.cur + (s.rxq.length - rest.length), midx := 4, fsm := .bodyPending, bidx := 0 }) ∧
    (readUntil (hdr v) s.rxq = none →
      ∃ m, m < 4 ∧ Host.Core.run Sys2Proof.core s.rxq.length s = .next { s with
        rxq := [], cur := s.cur + s.rxq.length, midx := m })

/-- READ1 as a whole, without the drain (R152): through any garbage to the first header, the body after it parsed and
emitted, the rest of the queue left, everything else unchanged. -/
def Obligations.Read1ReadsTheFirstPacket : Prop :=
  ∀ (s : State) (v : Variant) (body rest : List Byte) (r : Reading),
    s.variant = some v → s.op = .none → s.linkdown = false → s.tfail = false → s.pbuf.length = 30 →
    s.sched = [.host ⟨.cmd, [0x20, 0x00]⟩] → readUntil (hdr v) s.rxq = some (body ++ rest) → parse v body = some r →
    Host.Core.run Sys2Proof.core (1 + (s.rxq.length - rest.length) + 1) s = .next { s with
      sched := [], drain := false, drainPh := .no, fsm := .decoded, midx := 4, bidx := blen v,
      pbuf := body ++ s.pbuf.drop (blen v), rd := r, rdv := true, out := s.out ++ [r], outcome := .ok, done := true,
      rdValid := true, rxq := rest, cur := s.cur + (s.rxq.length - rest.length) }

/-- READALL on whole packets (R161, R159): exactly `N` Readings, in arrival order, and nothing is left but what was less
than one packet. Derived: the leftover bytes go beyond R161, and the schedule, on which the transport does not move, is log
entry 7's. -/
def Obligations.ReadallReadsEveryAlignedPacket : Prop :=
  ∀ (s : State) (v : Variant) (bodies : List (List Byte)) (rest : List Byte),
    s.variant = some v → s.op = .none → s.linkdown = false → s.tfail = false → s.pbuf.length = 30 →
    (s.fsm = .idle ∨ s.fsm = .decoded) → s.sched = [.host ⟨.cmd, [0x30, 0x00]⟩] →
    (∀ body ∈ bodies, body.length = blen v) → rest.length < total v →
    s.rxq = bodies.flatMap (fun body => hdr v ++ body) ++ rest →
    ∃ t, Host.Core.run Sys2Proof.core (1 + bodies.length * (total v + 2) + 1) s = .next t ∧
      t.out = s.out ++ bodies.filterMap (parse v) ∧ t.out.length = s.out.length + bodies.length ∧ t.rxq = rest ∧
      t.op = .none ∧ t.outcome = .ok ∧ t.linkdown = false ∧ t.txq = s.txq ∧ t.cfgout = s.cfgout ∧
      t.cur = s.cur + bodies.length * total v

/-! ### Reset -/

/-- Reset (derived from R200, R201, R204): the registers at the values the spec gives, the strap sampled, the host's reads
of `RD`, `SR` and `CFGOUT` answered with their fault set, the transport's queues and readiness kept. `TFAIL` is kept too
unless the platform reopened the transport: what a reset turn does with it is log entry 13. `RD`, whose fields the spec
gives no value, has the shape that the strap selects (R18; its values are log entry 2). -/
def Obligations.ResetSetsTheBlockAndKeepsTheStreams : Prop :=
  ∀ (s : State) (strap : Option Variant) (reopened : Bool), nextTurn s = .reset strap reopened →
    ∃ t, step s = .next t ∧ t.variant = strap ∧ t.fsm = .idle ∧ t.op = .none ∧ t.drain = false ∧ t.drainPh = .no ∧
      t.midx = 0 ∧ t.bidx = 0 ∧ t.txidx = 0 ∧ t.outcome = .ok ∧ t.linkdown = false ∧ t.rdv = false ∧ t.out = [] ∧
      t.cur = 0 ∧ t.rxq = s.rxq ∧ t.txq = s.txq ∧ t.tfail = (s.tfail && !reopened) ∧ t.txReady = s.txReady ∧
      t.flushKeep = s.flushKeep ∧ (∀ v, strap = some v → t.rd.HasShape v) ∧ (hostRead .rd t).fault = true ∧
      (hostRead .sr t).fault = true ∧ (hostRead .cfgout t).fault = true

/-- The host's reads (R10, R19 to R21, decision D29): each readable register with its code (R11, R12, R13, R24). A read of
`RD` or `SR` while `RDV = 0`, or of `CFGOUT` before the first valid CFGENC, is answered with its fault set and every other
without; that the mark `cfgoutWritten` says the latter is log entry 3, and that the fault is reported beside the register
instead of stopping the machine is log entry 21. -/
def Obligations.HostReadsOfUnwrittenRegistersFault : Prop :=
  ∀ s : State,
    hostRead .rd s = ⟨.reading s.rd, !s.rdv⟩ ∧
    hostRead .sr s = ⟨.report (statusReport s.rd.status) (s.rd.status == 0), !s.rdv⟩ ∧
    hostRead .cfgout s = ⟨.frame s.cfgout, !s.cfgoutWritten⟩ ∧
    hostRead .rdv s = ⟨.flag s.rdv, false⟩ ∧
    hostRead .linkdown s = ⟨.flag s.linkdown, false⟩ ∧
    (∃ c, hostRead .outcome s = ⟨.code c, false⟩ ∧ (c = 0 ↔ s.outcome = .ok) ∧
      (c = 1 ↔ s.outcome = .configurationError) ∧ (c = 2 ↔ s.outcome = .transportError) ∧
      (c = 3 ↔ s.outcome = .refused)) ∧
    (∃ c, hostRead .fsm s = ⟨.code c, false⟩ ∧ (c = 0 ↔ s.fsm = .idle) ∧ (c = 1 ↔ s.fsm = .synchronizing) ∧
      (c = 2 ↔ s.fsm = .bodyPending) ∧ (c = 3 ↔ s.fsm = .decoded)) ∧
    (∃ c, hostRead .op s = ⟨.code c, false⟩ ∧ (c = 0 ↔ s.op = .none) ∧ (c = 1 ↔ s.op = .cfgEnc) ∧
      (c = 2 ↔ s.op = .read1) ∧ (c = 3 ↔ s.op = .readAll)) ∧
    (∃ c, hostRead .variant s = ⟨.code c, false⟩ ∧ (c = 0 ↔ s.variant = some .compact) ∧
      (c = 1 ↔ s.variant = some .extended) ∧ (c = 2 ↔ s.variant = some .multi) ∧ (c = 3 ↔ s.variant = none))

/-! ### The whole machine -/

/-- Every step keeps the invariant (R12 to R20, R144, R158 and what follows from them). -/
def Obligations.EveryStepKeepsTheInvariant : Prop :=
  ∀ s t : State, s.Inv → step s = .next t → t.Inv

/-- The invariant holds right after reset, whatever the strap. -/
def Obligations.ResetMeetsTheInvariant : Prop :=
  State.reset.Inv ∧ ∀ strap, (State.resetWith strap).Inv

/-- In a state that meets the invariant a step has a next state unless it is a request whose bytes are no operand of its
port (derived: every rule of the spec's step relation has an effect; that a refused or reserved command has a next state is
log entry 9, and that a waiting block's turn has one is log entry 10). -/
def Obligations.StepsAlwaysAnswer : Prop :=
  ∀ s : State, s.Inv →
    (∀ r, nextTurn s = .host r → (r.port = .cmd ∧ r.bytes.length = 2) ∨ ∃ i, decode (.port r.port) r.bytes = .instr i) →
    ∃ t, step s = .next t

/-- `VARIANT` cannot be written between resets (R11). -/
def Obligations.VariantIsFixedBetweenResets : Prop :=
  ∀ s t : State, step s = .next t → (∀ strap reopened, nextTurn s ≠ .reset strap reopened) → t.variant = s.variant

/-- `LINKDOWN` and the transport's two bits. `LINKDOWN` is set only by a `TransportError` and cleared only by reset (R24).
The transport's steps `arrive`, `accept` and `fail` (R58) change what they name and nothing else; no other turn sets
`TFAIL`, and only a reset with the transport reopened clears it (R28; log entry 13); no other turn makes the transport
ready, and only a push uses the readiness up (log entry 20). How much the discard leaves is changed by its own turn alone
(log entry 8). -/
def Obligations.LinkdownIsStickyAndTransportBitsMoveAsListed : Prop :=
  (∀ s t : State, step s = .next t →
    (s.linkdown = true → t.linkdown = false → ∃ strap reopened, nextTurn s = .reset strap reopened) ∧
    (s.linkdown = false → t.linkdown = true →
      nextTurn s = .block ∧ s.tfail = true ∧ t.outcome = .transportError ∧ t.op = .none) ∧
    (s.tfail = false → t.tfail = true → nextTurn s = .fail) ∧
    (s.tfail = true → t.tfail = false → ∃ strap, nextTurn s = .reset strap true) ∧
    (s.txReady = false → t.txReady = true → nextTurn s = .accept) ∧
    (s.txReady = true → t.txReady = false →
      nextTurn s = .block ∧ s.op = .cfgEnc ∧ s.tfail = false ∧ ∃ b, t.txq = s.txq ++ [b]) ∧
    (t.flushKeep ≠ s.flushKeep → nextTurn s = .flushKeeps t.flushKeep)) ∧
  (∀ (s : State) (b : Byte), nextTurn s = .arrive b →
    step s = .next { s with rxq := s.rxq ++ [b], sched := s.sched.tail, done := false, rdValid := false }) ∧
  (∀ s : State, nextTurn s = .accept →
    step s = .next { s with txReady := true, sched := s.sched.tail, done := false, rdValid := false }) ∧
  (∀ s : State, nextTurn s = .fail →
    step s = .next { s with tfail := true, sched := s.sched.tail, done := false, rdValid := false })

/-- The transitions of `FSM` (R150): there is no other. -/
def Obligations.FsmMovesOnlyAsListed : Prop :=
  ∀ s t : State, s.Inv → step s = .next t → (∀ strap reopened, nextTurn s ≠ .reset strap reopened) →
    t.fsm ≠ s.fsm →
    ((s.fsm = .idle ∨ s.fsm = .decoded) ∧ t.fsm = .synchronizing ∧ t.midx = 0 ∧ (t.op = .read1 ∨ t.op = .readAll)) ∨
    (s.fsm = .synchronizing ∧ t.fsm = .bodyPending ∧ t.midx = 4 ∧ t.bidx = 0) ∨
    (s.fsm = .bodyPending ∧ t.fsm = .decoded ∧ ∃ v, s.variant = some v ∧ s.bidx = blen v) ∨
    ((s.fsm = .synchronizing ∨ s.fsm = .bodyPending) ∧ t.fsm = .idle ∧ t.outcome = .transportError)

/-- `RD`, `RDV` and `OUT` are written by the decode step alone (R18, R22); the step that emits strobes `rd_valid`. -/
def Obligations.OnlyTheDecodeStepWritesTheReading : Prop :=
  ∀ s t : State, step s = .next t → (∀ strap reopened, nextTurn s ≠ .reset strap reopened) →
    (t.rd = s.rd ∧ t.rdv = s.rdv ∧ t.out = s.out ∧ t.rdValid = false) ∨
    (nextTurn s = .block ∧ s.fsm = .bodyPending ∧ (∃ v, s.variant = some v ∧ s.bidx = blen v) ∧
      t.out = s.out ++ [t.rd] ∧ t.rdv = true ∧ t.rdValid = true)

/-- `CFGOUT` is written by the acceptance step of a valid CFGENC alone, whole and with a valid frame (R20, R141, R143). -/
def Obligations.OnlyAValidCfgencWritesTheFrameRegister : Prop :=
  ∀ s t : State, step s = .next t → (∀ strap reopened, nextTurn s ≠ .reset strap reopened) →
    (t.cfgout = s.cfgout ∧ t.cfgoutWritten = s.cfgoutWritten) ∨
    (∃ r, nextTurn s = .host r ∧ r.port = .cmd ∧ s.op = .none ∧ s.linkdown = false ∧ t.op = .cfgEnc ∧ t.txidx = 0 ∧
      t.txq = s.txq ∧ t.cfgoutWritten = true ∧ ∃ speed filter zero, t.cfgout = cfgFrame speed filter zero)

/-- Only the send step of CFGENC appends to `TXQ`, one byte at a time, and nothing removes from it (R27, R165). -/
def Obligations.OnlySendStepsAppendToTheTransmitQueue : Prop :=
  ∀ s t : State, step s = .next t →
    t.txq = s.txq ∨
    (nextTurn s = .block ∧ s.op = .cfgEnc ∧ s.tfail = false ∧ s.txReady = true ∧ ∃ b, t.txq = s.txq ++ [b])

/-- Bytes leave `RXQ` at its head one at a time, or in the flush of a drain (R26, R165); the cursor counts them
(R25); only an arrival adds one, at the tail. -/
def Obligations.CursorCountsTheBytesTaken : Prop :=
  ∀ s t : State, step s = .next t → (∀ strap reopened, nextTurn s ≠ .reset strap reopened) →
    (t.rxq = s.rxq ∧ t.cur = s.cur) ∨
    (∃ b, nextTurn s = .arrive b ∧ t.rxq = s.rxq ++ [b] ∧ t.cur = s.cur) ∨
    (∃ b, s.rxq = b :: t.rxq ∧ t.cur = s.cur + 1 ∧ (s.fsm = .synchronizing ∨ s.fsm = .bodyPending)) ∨
    (s.drainPh = .flush ∧ ∃ dropped, s.rxq = dropped ++ t.rxq ∧ t.cur = s.cur + dropped.length)

/-- A request to a copy of a pure unit changes no register of the block and no stream, whatever the block is doing
(R55, R107, R193): it only adds one answer. -/
def Obligations.PureUnitsShareNothingWithTheBlock : Prop :=
  ∀ (s t : State) (r : Request) (q : List Turn), s.sched = .host r :: q → r.port ≠ .cmd → step s = .next t →
    ∃ a, t = { s with sched := q, done := false, rdValid := false, answers := s.answers ++ [a] }

/-- The decode step does not depend on anything but the variant and the body buffer (R95, V6): two machines that agree
on these emit the same Reading. -/
def Obligations.ReadingDependsOnTheBufferOnly : Prop :=
  ∀ (s s' t t' : State) (v : Variant), nextTurn s = .block → nextTurn s' = .block → s.fsm = .bodyPending →
    s'.fsm = .bodyPending → (s.op = .read1 ∨ s.op = .readAll) → (s'.op = .read1 ∨ s'.op = .readAll) →
    s.variant = some v → s'.variant = some v → s.bidx = blen v → s'.bidx = blen v →
    s.pbuf.take (blen v) = s'.pbuf.take (blen v) → step s = .next t → step s' = .next t' → t.rd = t'.rd
end

