-- ==== Sys2Proof/Laws/Bytes.lean ====
section
/-! SUPPORT. What the byte and field helpers of Machine/Formats.lean and the decoder of Decode.lean satisfy: assembling
and splitting are inverse, a prefix is stripped exactly where it stands, a port only ever decodes to its own
instructions. -/

namespace Sys2Proof

/-- A field split into its bytes and assembled again (R64, R67). -/
@[simp] theorem be16_bytes (w : Half) : be16 (w.extractLsb' 8 8) (w.extractLsb' 0 8) = w := by
  apply BitVec.eq_of_getLsbD_eq
  intro i hi
  simp only [be16, BitVec.getLsbD_append, BitVec.getLsbD_extractLsb']
  by_cases h : i < 8 <;> simp [h]
  grind

/-- Two bytes assembled and split again. -/
@[simp] theorem halfBytes_be16 (h l : Byte) : halfBytes (be16 h l) = [h, l] := by
  simp only [halfBytes, be16, List.cons.injEq, and_true]
  constructor <;>
  · apply BitVec.eq_of_getLsbD_eq
    intro i hi
    simp
    try grind

/-- `be16(h, l) = 256*h + l` (R7). -/
theorem be16_toNat (h l : Byte) : (be16 h l).toNat = 256 * h.toNat + l.toNat := by
  unfold be16
  rw [BitVec.toNat_append, ← Nat.shiftLeft_add_eq_or_of_lt l.isLt, Nat.shiftLeft_eq]
  omega

@[simp] theorem halfBytes_length (w : Half) : (halfBytes w).length = 2 := rfl

/-- The body bytes of a list of fields assemble to the fields. -/
@[simp] theorem halves_halfBytes (ws : List Half) : halves (ws.flatMap halfBytes) = some ws := by
  induction ws with
  | nil => rfl
  | cons w ws ih => simpa [halfBytes, halves] using ih

/-- What the fields of a body are: their bytes are the body. -/
theorem bytes_of_halves {bs : List Byte} {ws : List Half} (h : halves bs = some ws) : ws.flatMap halfBytes = bs := by
  fun_induction halves bs generalizing ws with
  | case1 => simp at h; subst h; rfl
  | case2 => simp at h
  | case3 a b rest ih =>
    obtain ⟨us, hus, rfl⟩ := Option.map_eq_some_iff.1 h
    simp [ih hus]

@[simp] theorem flatMap_halfBytes_length (ws : List Half) : (ws.flatMap halfBytes).length = 2 * ws.length := by
  induction ws with
  | nil => rfl
  | cons w ws ih => simp only [List.flatMap_cons, List.length_append, ih, halfBytes_length, List.length_cons]; omega

theorem halves_length {bs : List Byte} {ws : List Half} (h : halves bs = some ws) : bs.length = 2 * ws.length := by
  rw [← bytes_of_halves h, flatMap_halfBytes_length]

/-- A body of an even number of bytes has fields. -/
theorem halves_of_even {bs : List Byte} (h : bs.length % 2 = 0) : ∃ ws, halves bs = some ws := by
  fun_induction halves bs with
  | case1 => exact ⟨_, rfl⟩
  | case2 => simp at h
  | case3 a b rest ih =>
    obtain ⟨ws, hws⟩ := ih (by simp at h; omega)
    exact ⟨be16 a b :: ws, by simp [hws]⟩

/-- A prefix is stripped exactly from the bytes that begin with it. -/
theorem afterPrefix_eq_some {p bs rest : List Byte} : afterPrefix p bs = some rest ↔ bs = p ++ rest := by
  fun_induction afterPrefix p bs <;> simp_all
  grind

@[simp] theorem afterPrefix_append (p bs : List Byte) : afterPrefix p (p ++ bs) = some bs := afterPrefix_eq_some.2 rfl

@[simp] theorem hdr_length (v : Variant) : (hdr v).length = 4 := by cases v <;> rfl

@[simp] theorem bytesOfNat_length (n w : Nat) : (bytesOfNat n w).length = n := by
  induction n with
  | zero => rfl
  | succ n ih => simp [bytesOfNat, ih]

theorem blen_le (v : Variant) : blen v ≤ 30 := by cases v <;> decide

theorem total_eq (v : Variant) : total v = 4 + blen v := by cases v <;> rfl

/-- A word operand decodes only from two bytes. -/
theorem decodeWord_eq {f : Half → Decoded} {bs : List Byte} {i : Instr} (h : decodeWord f bs = .instr i) :
    ∃ a b, bs = [a, b] ∧ f (be16 a b) = .instr i := by
  unfold decodeWord at h
  split at h
  · exact ⟨_, _, rfl, h⟩
  · cases h

/-- What the operands of CSUM.IN and CSUM.VALID decode from (R90). -/
theorem decodeCsum_eq {mk : Byte → List Byte → Instr} {bs : List Byte} {i : Instr} (h : decodeCsum mk bs = .instr i) :
    ∃ k body, bs = hdrOf k ++ body ∧ 2 ≤ body.length ∧ mk k body = i := by
  unfold decodeCsum at h
  split at h
  · cases h
  · cases h
  · rename_i k body hb
    split at h
    · exact ⟨k, body, by simpa [hdrOf] using afterPrefix_eq_some.1 hb, by assumption, by simpa using h⟩
    · cases h

/-- The command port decodes to the three host commands only (R72). -/
theorem decode_cmd_cases {bs : List Byte} {i : Instr} (h : decode (.port .cmd) bs = .instr i) :
    (∃ a b z, i = .cfgenc a b z) ∨ (∃ d, i = .read1 d) ∨ i = .readall := by
  obtain ⟨a, b, -, h⟩ := decodeWord_eq h
  unfold decodeCommand at h
  split at h <;> simp at h <;> simp [← h]

/-- The speed code table is read and written alike (R68). -/
theorem speedCode_of_speedOfCode {c : Byte} {speed : Speed} (h : speedOfCode c = some speed) : speedCode speed = c := by
  cases speed <;> revert c <;> decide

/-- The filter code table is read and written alike (R69). -/
theorem filterCode_of_filterOfCode {c : Byte} {filter : Filter} (h : filterOfCode c = some filter) :
    filterCode filter = c := by
  cases filter <;> revert c <;> decide

/-- The zero flag is read and written alike (R70). -/
theorem zeroFlag_of_zeroOfFlag {c : Byte} {zero : Bool} (h : zeroOfFlag c = some zero) : zeroFlag zero = c := by
  cases zero <;> revert c <;> decide

/-- What a configuration frame decodes from (R66). -/
theorem decodeCfgFrame_eq {bs : List Byte} {i : Instr} (h : decodeCfgFrame bs = .instr i) :
    ∃ speed filter zero k, i = .cfgframe speed filter zero k ∧ bs = encode i := by
  unfold decodeCfgFrame at h
  split at h <;> try cases h
  rename_i s f z ch cl hb
  split at h <;> try cases h
  rename_i speed hs
  split at h <;> try cases h
  rename_i filter hf
  split at h <;> try cases h
  rename_i zero hz
  have e1 := speedCode_of_speedOfCode hs
  have e2 := filterCode_of_filterOfCode hf
  have e3 := zeroFlag_of_zeroOfFlag hz
  exact ⟨_, _, _, _, rfl, by simp [afterPrefix_eq_some.1 hb, encode, cfgPrefix, e1, e2, e3]⟩

/-- A port decodes only to instructions whose slot it is. -/
theorem decode_port_slot {p : Port} {bs : List Byte} {i : Instr} (h : decode (.port p) bs = .instr i) :
    i.slot = .port p := by
  cases p with
  | cmd => obtain ⟨a, b, z, rfl⟩ | ⟨d, rfl⟩ | rfl := decode_cmd_cases h <;> rfl
  | cfgframe => obtain ⟨a, b, z, k, rfl, -⟩ := decodeCfgFrame_eq h; rfl
  | csumIn => obtain ⟨k, body, -, -, rfl⟩ := decodeCsum_eq h; rfl
  | csumValid => obtain ⟨k, body, -, -, rfl⟩ := decodeCsum_eq h; rfl
  | csumOut =>
    simp only [decode, decodePort, decodeCsumOut] at h
    split at h <;> cases h
    rfl
  | statdec => simp only [decode, decodePort] at h; obtain ⟨a, b, -, h⟩ := decodeWord_eq h; cases h; rfl
  | daq => simp only [decode, decodePort] at h; obtain ⟨a, b, -, h⟩ := decodeWord_eq h; cases h; rfl
  | sen => simp only [decode, decodePort] at h; obtain ⟨a, b, -, h⟩ := decodeWord_eq h; cases h; rfl
  | ovld => simp only [decode, decodePort] at h; obtain ⟨a, b, -, h⟩ := decodeWord_eq h; cases h; rfl
  | mult => simp only [decode, decodePort] at h; obtain ⟨a, b, -, h⟩ := decodeWord_eq h; cases h; rfl
  | sidx => simp only [decode, decodePort] at h; obtain ⟨a, b, -, h⟩ := decodeWord_eq h; cases h; rfl
  | noerr => simp only [decode, decodePort] at h; obtain ⟨a, b, -, h⟩ := decodeWord_eq h; cases h; rfl
  | scale a => simp only [decode, decodePort] at h; obtain ⟨c, b, -, h⟩ := decodeWord_eq h; cases h; rfl

/-- What a packet decodes to, by its fields (R61 to R63). -/
theorem decode_packet_cases {v : Variant} {bs : List Byte} {i : Instr} (h : decode (.packet v) bs = .instr i) :
    (v = .compact ∧ ∃ c st f k, i = .parseC c st f k) ∨ (v = .extended ∧ ∃ c st f t k, i = .parseE c st f t k) ∨
    (v = .multi ∧ ∃ c st f0 f1 f2 f3 k, i = .parseM c st f0 f1 f2 f3 k) := by
  simp only [decode, decodePacket] at h
  split at h
  · cases h
  · cases v <;> simp only [decodeBody, compactFields, extendedFields, multiFields] at h <;> split at h <;> cases h <;>
      simp

end Sys2Proof
end

