-- ==== Sys2Proof/Laws/State.lean ====
section
/-! SUPPORT. One lemma per field for every named update of the state, true by rfl, so that no later proof unfolds a
record update. -/

namespace Sys2Proof.Machine

variable (s : State)

/-! ### `clearStrobes` -/

@[simp] theorem clearStrobes_variant : (clearStrobes s).variant = s.variant := rfl
@[simp] theorem clearStrobes_fsm : (clearStrobes s).fsm = s.fsm := rfl
@[simp] theorem clearStrobes_op : (clearStrobes s).op = s.op := rfl
@[simp] theorem clearStrobes_drain : (clearStrobes s).drain = s.drain := rfl
@[simp] theorem clearStrobes_drainPh : (clearStrobes s).drainPh = s.drainPh := rfl
@[simp] theorem clearStrobes_midx : (clearStrobes s).midx = s.midx := rfl
@[simp] theorem clearStrobes_bidx : (clearStrobes s).bidx = s.bidx := rfl
@[simp] theorem clearStrobes_txidx : (clearStrobes s).txidx = s.txidx := rfl
@[simp] theorem clearStrobes_pbuf : (clearStrobes s).pbuf = s.pbuf := rfl
@[simp] theorem clearStrobes_rd : (clearStrobes s).rd = s.rd := rfl
@[simp] theorem clearStrobes_rdv : (clearStrobes s).rdv = s.rdv := rfl
@[simp] theorem clearStrobes_cfgout : (clearStrobes s).cfgout = s.cfgout := rfl
@[simp] theorem clearStrobes_cfgoutWritten : (clearStrobes s).cfgoutWritten = s.cfgoutWritten := rfl
@[simp] theorem clearStrobes_outcome : (clearStrobes s).outcome = s.outcome := rfl
@[simp] theorem clearStrobes_linkdown : (clearStrobes s).linkdown = s.linkdown := rfl
@[simp] theorem clearStrobes_done : (clearStrobes s).done = false := rfl
@[simp] theorem clearStrobes_rdValid : (clearStrobes s).rdValid = false := rfl
@[simp] theorem clearStrobes_out : (clearStrobes s).out = s.out := rfl
@[simp] theorem clearStrobes_rxq : (clearStrobes s).rxq = s.rxq := rfl
@[simp] theorem clearStrobes_txq : (clearStrobes s).txq = s.txq := rfl
@[simp] theorem clearStrobes_tfail : (clearStrobes s).tfail = s.tfail := rfl
@[simp] theorem clearStrobes_cur : (clearStrobes s).cur = s.cur := rfl
@[simp] theorem clearStrobes_txReady : (clearStrobes s).txReady = s.txReady := rfl
@[simp] theorem clearStrobes_flushKeep : (clearStrobes s).flushKeep = s.flushKeep := rfl
@[simp] theorem clearStrobes_sched : (clearStrobes s).sched = s.sched := rfl
@[simp] theorem clearStrobes_answers : (clearStrobes s).answers = s.answers := rfl

/-! ### `withSched` -/

@[simp] theorem withSched_variant (q : List Turn) : (withSched q s).variant = s.variant := rfl
@[simp] theorem withSched_fsm (q : List Turn) : (withSched q s).fsm = s.fsm := rfl
@[simp] theorem withSched_op (q : List Turn) : (withSched q s).op = s.op := rfl
@[simp] theorem withSched_drain (q : List Turn) : (withSched q s).drain = s.drain := rfl
@[simp] theorem withSched_drainPh (q : List Turn) : (withSched q s).drainPh = s.drainPh := rfl
@[simp] theorem withSched_midx (q : List Turn) : (withSched q s).midx = s.midx := rfl
@[simp] theorem withSched_bidx (q : List Turn) : (withSched q s).bidx = s.bidx := rfl
@[simp] theorem withSched_txidx (q : List Turn) : (withSched q s).txidx = s.txidx := rfl
@[simp] theorem withSched_pbuf (q : List Turn) : (withSched q s).pbuf = s.pbuf := rfl
@[simp] theorem withSched_rd (q : List Turn) : (withSched q s).rd = s.rd := rfl
@[simp] theorem withSched_rdv (q : List Turn) : (withSched q s).rdv = s.rdv := rfl
@[simp] theorem withSched_cfgout (q : List Turn) : (withSched q s).cfgout = s.cfgout := rfl
@[simp] theorem withSched_cfgoutWritten (q : List Turn) : (withSched q s).cfgoutWritten = s.cfgoutWritten := rfl
@[simp] theorem withSched_outcome (q : List Turn) : (withSched q s).outcome = s.outcome := rfl
@[simp] theorem withSched_linkdown (q : List Turn) : (withSched q s).linkdown = s.linkdown := rfl
@[simp] theorem withSched_done (q : List Turn) : (withSched q s).done = s.done := rfl
@[simp] theorem withSched_rdValid (q : List Turn) : (withSched q s).rdValid = s.rdValid := rfl
@[simp] theorem withSched_out (q : List Turn) : (withSched q s).out = s.out := rfl
@[simp] theorem withSched_rxq (q : List Turn) : (withSched q s).rxq = s.rxq := rfl
@[simp] theorem withSched_txq (q : List Turn) : (withSched q s).txq = s.txq := rfl
@[simp] theorem withSched_tfail (q : List Turn) : (withSched q s).tfail = s.tfail := rfl
@[simp] theorem withSched_cur (q : List Turn) : (withSched q s).cur = s.cur := rfl
@[simp] theorem withSched_txReady (q : List Turn) : (withSched q s).txReady = s.txReady := rfl
@[simp] theorem withSched_flushKeep (q : List Turn) : (withSched q s).flushKeep = s.flushKeep := rfl
@[simp] theorem withSched_sched (q : List Turn) : (withSched q s).sched = q := rfl
@[simp] theorem withSched_answers (q : List Turn) : (withSched q s).answers = s.answers := rfl

/-! ### `answer` -/

@[simp] theorem answer_variant (a : Answer) : (answer a s).variant = s.variant := rfl
@[simp] theorem answer_fsm (a : Answer) : (answer a s).fsm = s.fsm := rfl
@[simp] theorem answer_op (a : Answer) : (answer a s).op = s.op := rfl
@[simp] theorem answer_drain (a : Answer) : (answer a s).drain = s.drain := rfl
@[simp] theorem answer_drainPh (a : Answer) : (answer a s).drainPh = s.drainPh := rfl
@[simp] theorem answer_midx (a : Answer) : (answer a s).midx = s.midx := rfl
@[simp] theorem answer_bidx (a : Answer) : (answer a s).bidx = s.bidx := rfl
@[simp] theorem answer_txidx (a : Answer) : (answer a s).txidx = s.txidx := rfl
@[simp] theorem answer_pbuf (a : Answer) : (answer a s).pbuf = s.pbuf := rfl
@[simp] theorem answer_rd (a : Answer) : (answer a s).rd = s.rd := rfl
@[simp] theorem answer_rdv (a : Answer) : (answer a s).rdv = s.rdv := rfl
@[simp] theorem answer_cfgout (a : Answer) : (answer a s).cfgout = s.cfgout := rfl
@[simp] theorem answer_cfgoutWritten (a : Answer) : (answer a s).cfgoutWritten = s.cfgoutWritten := rfl
@[simp] theorem answer_outcome (a : Answer) : (answer a s).outcome = s.outcome := rfl
@[simp] theorem answer_linkdown (a : Answer) : (answer a s).linkdown = s.linkdown := rfl
@[simp] theorem answer_done (a : Answer) : (answer a s).done = s.done := rfl
@[simp] theorem answer_rdValid (a : Answer) : (answer a s).rdValid = s.rdValid := rfl
@[simp] theorem answer_out (a : Answer) : (answer a s).out = s.out := rfl
@[simp] theorem answer_rxq (a : Answer) : (answer a s).rxq = s.rxq := rfl
@[simp] theorem answer_txq (a : Answer) : (answer a s).txq = s.txq := rfl
@[simp] theorem answer_tfail (a : Answer) : (answer a s).tfail = s.tfail := rfl
@[simp] theorem answer_cur (a : Answer) : (answer a s).cur = s.cur := rfl
@[simp] theorem answer_txReady (a : Answer) : (answer a s).txReady = s.txReady := rfl
@[simp] theorem answer_flushKeep (a : Answer) : (answer a s).flushKeep = s.flushKeep := rfl
@[simp] theorem answer_sched (a : Answer) : (answer a s).sched = s.sched := rfl
@[simp] theorem answer_answers (a : Answer) : (answer a s).answers = s.answers ++ [a] := rfl

/-! ### `emit` -/

@[simp] theorem emit_variant (r : Reading) : (emit r s).variant = s.variant := rfl
@[simp] theorem emit_fsm (r : Reading) : (emit r s).fsm = s.fsm := rfl
@[simp] theorem emit_op (r : Reading) : (emit r s).op = s.op := rfl
@[simp] theorem emit_drain (r : Reading) : (emit r s).drain = s.drain := rfl
@[simp] theorem emit_drainPh (r : Reading) : (emit r s).drainPh = s.drainPh := rfl
@[simp] theorem emit_midx (r : Reading) : (emit r s).midx = s.midx := rfl
@[simp] theorem emit_bidx (r : Reading) : (emit r s).bidx = s.bidx := rfl
@[simp] theorem emit_txidx (r : Reading) : (emit r s).txidx = s.txidx := rfl
@[simp] theorem emit_pbuf (r : Reading) : (emit r s).pbuf = s.pbuf := rfl
@[simp] theorem emit_rd (r : Reading) : (emit r s).rd = r := rfl
@[simp] theorem emit_rdv (r : Reading) : (emit r s).rdv = true := rfl
@[simp] theorem emit_cfgout (r : Reading) : (emit r s).cfgout = s.cfgout := rfl
@[simp] theorem emit_cfgoutWritten (r : Reading) : (emit r s).cfgoutWritten = s.cfgoutWritten := rfl
@[simp] theorem emit_outcome (r : Reading) : (emit r s).outcome = s.outcome := rfl
@[simp] theorem emit_linkdown (r : Reading) : (emit r s).linkdown = s.linkdown := rfl
@[simp] theorem emit_done (r : Reading) : (emit r s).done = s.done := rfl
@[simp] theorem emit_rdValid (r : Reading) : (emit r s).rdValid = true := rfl
@[simp] theorem emit_out (r : Reading) : (emit r s).out = s.out ++ [r] := rfl
@[simp] theorem emit_rxq (r : Reading) : (emit r s).rxq = s.rxq := rfl
@[simp] theorem emit_txq (r : Reading) : (emit r s).txq = s.txq := rfl
@[simp] theorem emit_tfail (r : Reading) : (emit r s).tfail = s.tfail := rfl
@[simp] theorem emit_cur (r : Reading) : (emit r s).cur = s.cur := rfl
@[simp] theorem emit_txReady (r : Reading) : (emit r s).txReady = s.txReady := rfl
@[simp] theorem emit_flushKeep (r : Reading) : (emit r s).flushKeep = s.flushKeep := rfl
@[simp] theorem emit_sched (r : Reading) : (emit r s).sched = s.sched := rfl
@[simp] theorem emit_answers (r : Reading) : (emit r s).answers = s.answers := rfl

/-! ### `endOp` -/

@[simp] theorem endOp_variant (e : Ending) : (endOp e s).variant = s.variant := rfl
@[simp] theorem endOp_fsm (e : Ending) : (endOp e s).fsm = s.fsm := rfl
@[simp] theorem endOp_op (e : Ending) : (endOp e s).op = .none := rfl
@[simp] theorem endOp_drain (e : Ending) : (endOp e s).drain = s.drain := rfl
@[simp] theorem endOp_drainPh (e : Ending) : (endOp e s).drainPh = s.drainPh := rfl
@[simp] theorem endOp_midx (e : Ending) : (endOp e s).midx = s.midx := rfl
@[simp] theorem endOp_bidx (e : Ending) : (endOp e s).bidx = s.bidx := rfl
@[simp] theorem endOp_txidx (e : Ending) : (endOp e s).txidx = s.txidx := rfl
@[simp] theorem endOp_pbuf (e : Ending) : (endOp e s).pbuf = s.pbuf := rfl
@[simp] theorem endOp_rd (e : Ending) : (endOp e s).rd = s.rd := rfl
@[simp] theorem endOp_rdv (e : Ending) : (endOp e s).rdv = s.rdv := rfl
@[simp] theorem endOp_cfgout (e : Ending) : (endOp e s).cfgout = s.cfgout := rfl
@[simp] theorem endOp_cfgoutWritten (e : Ending) : (endOp e s).cfgoutWritten = s.cfgoutWritten := rfl
@[simp] theorem endOp_outcome (e : Ending) : (endOp e s).outcome = e := rfl
@[simp] theorem endOp_linkdown (e : Ending) : (endOp e s).linkdown = s.linkdown := rfl
@[simp] theorem endOp_done (e : Ending) : (endOp e s).done = true := rfl
@[simp] theorem endOp_rdValid (e : Ending) : (endOp e s).rdValid = s.rdValid := rfl
@[simp] theorem endOp_out (e : Ending) : (endOp e s).out = s.out := rfl
@[simp] theorem endOp_rxq (e : Ending) : (endOp e s).rxq = s.rxq := rfl
@[simp] theorem endOp_txq (e : Ending) : (endOp e s).txq = s.txq := rfl
@[simp] theorem endOp_tfail (e : Ending) : (endOp e s).tfail = s.tfail := rfl
@[simp] theorem endOp_cur (e : Ending) : (endOp e s).cur = s.cur := rfl
@[simp] theorem endOp_txReady (e : Ending) : (endOp e s).txReady = s.txReady := rfl
@[simp] theorem endOp_flushKeep (e : Ending) : (endOp e s).flushKeep = s.flushKeep := rfl
@[simp] theorem endOp_sched (e : Ending) : (endOp e s).sched = s.sched := rfl
@[simp] theorem endOp_answers (e : Ending) : (endOp e s).answers = s.answers := rfl

/-! ### `raiseTransportError` -/

@[simp] theorem raiseTransportError_variant : (raiseTransportError s).variant = s.variant := rfl
@[simp] theorem raiseTransportError_fsm : (raiseTransportError s).fsm = fsmAfterFailure s.fsm := rfl
@[simp] theorem raiseTransportError_op : (raiseTransportError s).op = .none := rfl
@[simp] theorem raiseTransportError_drain : (raiseTransportError s).drain = s.drain := rfl
@[simp] theorem raiseTransportError_drainPh : (raiseTransportError s).drainPh = .no := rfl
@[simp] theorem raiseTransportError_midx : (raiseTransportError s).midx = s.midx := rfl
@[simp] theorem raiseTransportError_bidx : (raiseTransportError s).bidx = s.bidx := rfl
@[simp] theorem raiseTransportError_txidx : (raiseTransportError s).txidx = s.txidx := rfl
@[simp] theorem raiseTransportError_pbuf : (raiseTransportError s).pbuf = s.pbuf := rfl
@[simp] theorem raiseTransportError_rd : (raiseTransportError s).rd = s.rd := rfl
@[simp] theorem raiseTransportError_rdv : (raiseTransportError s).rdv = s.rdv := rfl
@[simp] theorem raiseTransportError_cfgout : (raiseTransportError s).cfgout = s.cfgout := rfl
@[simp] theorem raiseTransportError_cfgoutWritten : (raiseTransportError s).cfgoutWritten = s.cfgoutWritten := rfl
@[simp] theorem raiseTransportError_outcome : (raiseTransportError s).outcome = .transportError := rfl
@[simp] theorem raiseTransportError_linkdown : (raiseTransportError s).linkdown = true := rfl
@[simp] theorem raiseTransportError_done : (raiseTransportError s).done = true := rfl
@[simp] theorem raiseTransportError_rdValid : (raiseTransportError s).rdValid = s.rdValid := rfl
@[simp] theorem raiseTransportError_out : (raiseTransportError s).out = s.out := rfl
@[simp] theorem raiseTransportError_rxq : (raiseTransportError s).rxq = s.rxq := rfl
@[simp] theorem raiseTransportError_txq : (raiseTransportError s).txq = s.txq := rfl
@[simp] theorem raiseTransportError_tfail : (raiseTransportError s).tfail = s.tfail := rfl
@[simp] theorem raiseTransportError_cur : (raiseTransportError s).cur = s.cur := rfl
@[simp] theorem raiseTransportError_txReady : (raiseTransportError s).txReady = s.txReady := rfl
@[simp] theorem raiseTransportError_flushKeep : (raiseTransportError s).flushKeep = s.flushKeep := rfl
@[simp] theorem raiseTransportError_sched : (raiseTransportError s).sched = s.sched := rfl
@[simp] theorem raiseTransportError_answers : (raiseTransportError s).answers = s.answers := rfl

/-! ### `raiseConfigurationError` -/

@[simp] theorem raiseConfigurationError_variant : (raiseConfigurationError s).variant = s.variant := rfl
@[simp] theorem raiseConfigurationError_fsm : (raiseConfigurationError s).fsm = s.fsm := rfl
@[simp] theorem raiseConfigurationError_op : (raiseConfigurationError s).op = s.op := rfl
@[simp] theorem raiseConfigurationError_drain : (raiseConfigurationError s).drain = s.drain := rfl
@[simp] theorem raiseConfigurationError_drainPh : (raiseConfigurationError s).drainPh = s.drainPh := rfl
@[simp] theorem raiseConfigurationError_midx : (raiseConfigurationError s).midx = s.midx := rfl
@[simp] theorem raiseConfigurationError_bidx : (raiseConfigurationError s).bidx = s.bidx := rfl
@[simp] theorem raiseConfigurationError_txidx : (raiseConfigurationError s).txidx = s.txidx := rfl
@[simp] theorem raiseConfigurationError_pbuf : (raiseConfigurationError s).pbuf = s.pbuf := rfl
@[simp] theorem raiseConfigurationError_rd : (raiseConfigurationError s).rd = s.rd := rfl
@[simp] theorem raiseConfigurationError_rdv : (raiseConfigurationError s).rdv = s.rdv := rfl
@[simp] theorem raiseConfigurationError_cfgout : (raiseConfigurationError s).cfgout = s.cfgout := rfl
@[simp] theorem raiseConfigurationError_cfgoutWritten : (raiseConfigurationError s).cfgoutWritten = s.cfgoutWritten := rfl
@[simp] theorem raiseConfigurationError_outcome : (raiseConfigurationError s).outcome = .configurationError := rfl
@[simp] theorem raiseConfigurationError_linkdown : (raiseConfigurationError s).linkdown = s.linkdown := rfl
@[simp] theorem raiseConfigurationError_done : (raiseConfigurationError s).done = true := rfl
@[simp] theorem raiseConfigurationError_rdValid : (raiseConfigurationError s).rdValid = s.rdValid := rfl
@[simp] theorem raiseConfigurationError_out : (raiseConfigurationError s).out = s.out := rfl
@[simp] theorem raiseConfigurationError_rxq : (raiseConfigurationError s).rxq = s.rxq := rfl
@[simp] theorem raiseConfigurationError_txq : (raiseConfigurationError s).txq = s.txq := rfl
@[simp] theorem raiseConfigurationError_tfail : (raiseConfigurationError s).tfail = s.tfail := rfl
@[simp] theorem raiseConfigurationError_cur : (raiseConfigurationError s).cur = s.cur := rfl
@[simp] theorem raiseConfigurationError_txReady : (raiseConfigurationError s).txReady = s.txReady := rfl
@[simp] theorem raiseConfigurationError_flushKeep : (raiseConfigurationError s).flushKeep = s.flushKeep := rfl
@[simp] theorem raiseConfigurationError_sched : (raiseConfigurationError s).sched = s.sched := rfl
@[simp] theorem raiseConfigurationError_answers : (raiseConfigurationError s).answers = s.answers := rfl

/-! ### `acceptCfgenc` -/

@[simp] theorem acceptCfgenc_variant (f : List Byte) : (acceptCfgenc f s).variant = s.variant := rfl
@[simp] theorem acceptCfgenc_fsm (f : List Byte) : (acceptCfgenc f s).fsm = s.fsm := rfl
@[simp] theorem acceptCfgenc_op (f : List Byte) : (acceptCfgenc f s).op = .cfgEnc := rfl
@[simp] theorem acceptCfgenc_drain (f : List Byte) : (acceptCfgenc f s).drain = s.drain := rfl
@[simp] theorem acceptCfgenc_drainPh (f : List Byte) : (acceptCfgenc f s).drainPh = s.drainPh := rfl
@[simp] theorem acceptCfgenc_midx (f : List Byte) : (acceptCfgenc f s).midx = s.midx := rfl
@[simp] theorem acceptCfgenc_bidx (f : List Byte) : (acceptCfgenc f s).bidx = s.bidx := rfl
@[simp] theorem acceptCfgenc_txidx (f : List Byte) : (acceptCfgenc f s).txidx = 0 := rfl
@[simp] theorem acceptCfgenc_pbuf (f : List Byte) : (acceptCfgenc f s).pbuf = s.pbuf := rfl
@[simp] theorem acceptCfgenc_rd (f : List Byte) : (acceptCfgenc f s).rd = s.rd := rfl
@[simp] theorem acceptCfgenc_rdv (f : List Byte) : (acceptCfgenc f s).rdv = s.rdv := rfl
@[simp] theorem acceptCfgenc_cfgout (f : List Byte) : (acceptCfgenc f s).cfgout = f := rfl
@[simp] theorem acceptCfgenc_cfgoutWritten (f : List Byte) : (acceptCfgenc f s).cfgoutWritten = true := rfl
@[simp] theorem acceptCfgenc_outcome (f : List Byte) : (acceptCfgenc f s).outcome = s.outcome := rfl
@[simp] theorem acceptCfgenc_linkdown (f : List Byte) : (acceptCfgenc f s).linkdown = s.linkdown := rfl
@[simp] theorem acceptCfgenc_done (f : List Byte) : (acceptCfgenc f s).done = s.done := rfl
@[simp] theorem acceptCfgenc_rdValid (f : List Byte) : (acceptCfgenc f s).rdValid = s.rdValid := rfl
@[simp] theorem acceptCfgenc_out (f : List Byte) : (acceptCfgenc f s).out = s.out := rfl
@[simp] theorem acceptCfgenc_rxq (f : List Byte) : (acceptCfgenc f s).rxq = s.rxq := rfl
@[simp] theorem acceptCfgenc_txq (f : List Byte) : (acceptCfgenc f s).txq = s.txq := rfl
@[simp] theorem acceptCfgenc_tfail (f : List Byte) : (acceptCfgenc f s).tfail = s.tfail := rfl
@[simp] theorem acceptCfgenc_cur (f : List Byte) : (acceptCfgenc f s).cur = s.cur := rfl
@[simp] theorem acceptCfgenc_txReady (f : List Byte) : (acceptCfgenc f s).txReady = s.txReady := rfl
@[simp] theorem acceptCfgenc_flushKeep (f : List Byte) : (acceptCfgenc f s).flushKeep = s.flushKeep := rfl
@[simp] theorem acceptCfgenc_sched (f : List Byte) : (acceptCfgenc f s).sched = s.sched := rfl
@[simp] theorem acceptCfgenc_answers (f : List Byte) : (acceptCfgenc f s).answers = s.answers := rfl

/-! ### `acceptRead1` -/

@[simp] theorem acceptRead1_variant (d : Bool) : (acceptRead1 d s).variant = s.variant := rfl
@[simp] theorem acceptRead1_fsm (d : Bool) : (acceptRead1 d s).fsm = .synchronizing := rfl
@[simp] theorem acceptRead1_op (d : Bool) : (acceptRead1 d s).op = .read1 := rfl
@[simp] theorem acceptRead1_drain (d : Bool) : (acceptRead1 d s).drain = d := rfl
@[simp] theorem acceptRead1_drainPh (d : Bool) : (acceptRead1 d s).drainPh = (if d then .check else .no) := rfl
@[simp] theorem acceptRead1_midx (d : Bool) : (acceptRead1 d s).midx = 0 := rfl
@[simp] theorem acceptRead1_bidx (d : Bool) : (acceptRead1 d s).bidx = s.bidx := rfl
@[simp] theorem acceptRead1_txidx (d : Bool) : (acceptRead1 d s).txidx = s.txidx := rfl
@[simp] theorem acceptRead1_pbuf (d : Bool) : (acceptRead1 d s).pbuf = s.pbuf := rfl
@[simp] theorem acceptRead1_rd (d : Bool) : (acceptRead1 d s).rd = s.rd := rfl
@[simp] theorem acceptRead1_rdv (d : Bool) : (acceptRead1 d s).rdv = s.rdv := rfl
@[simp] theorem acceptRead1_cfgout (d : Bool) : (acceptRead1 d s).cfgout = s.cfgout := rfl
@[simp] theorem acceptRead1_cfgoutWritten (d : Bool) : (acceptRead1 d s).cfgoutWritten = s.cfgoutWritten := rfl
@[simp] theorem acceptRead1_outcome (d : Bool) : (acceptRead1 d s).outcome = s.outcome := rfl
@[simp] theorem acceptRead1_linkdown (d : Bool) : (acceptRead1 d s).linkdown = s.linkdown := rfl
@[simp] theorem acceptRead1_done (d : Bool) : (acceptRead1 d s).done = s.done := rfl
@[simp] theorem acceptRead1_rdValid (d : Bool) : (acceptRead1 d s).rdValid = s.rdValid := rfl
@[simp] theorem acceptRead1_out (d : Bool) : (acceptRead1 d s).out = s.out := rfl
@[simp] theorem acceptRead1_rxq (d : Bool) : (acceptRead1 d s).rxq = s.rxq := rfl
@[simp] theorem acceptRead1_txq (d : Bool) : (acceptRead1 d s).txq = s.txq := rfl
@[simp] theorem acceptRead1_tfail (d : Bool) : (acceptRead1 d s).tfail = s.tfail := rfl
@[simp] theorem acceptRead1_cur (d : Bool) : (acceptRead1 d s).cur = s.cur := rfl
@[simp] theorem acceptRead1_txReady (d : Bool) : (acceptRead1 d s).txReady = s.txReady := rfl
@[simp] theorem acceptRead1_flushKeep (d : Bool) : (acceptRead1 d s).flushKeep = s.flushKeep := rfl
@[simp] theorem acceptRead1_sched (d : Bool) : (acceptRead1 d s).sched = s.sched := rfl
@[simp] theorem acceptRead1_answers (d : Bool) : (acceptRead1 d s).answers = s.answers := rfl

/-! ### `acceptReadall` -/

@[simp] theorem acceptReadall_variant : (acceptReadall s).variant = s.variant := rfl
@[simp] theorem acceptReadall_fsm : (acceptReadall s).fsm = s.fsm := rfl
@[simp] theorem acceptReadall_op : (acceptReadall s).op = .readAll := rfl
@[simp] theorem acceptReadall_drain : (acceptReadall s).drain = false := rfl
@[simp] theorem acceptReadall_drainPh : (acceptReadall s).drainPh = .no := rfl
@[simp] theorem acceptReadall_midx : (acceptReadall s).midx = s.midx := rfl
@[simp] theorem acceptReadall_bidx : (acceptReadall s).bidx = s.bidx := rfl
@[simp] theorem acceptReadall_txidx : (acceptReadall s).txidx = s.txidx := rfl
@[simp] theorem acceptReadall_pbuf : (acceptReadall s).pbuf = s.pbuf := rfl
@[simp] theorem acceptReadall_rd : (acceptReadall s).rd = s.rd := rfl
@[simp] theorem acceptReadall_rdv : (acceptReadall s).rdv = s.rdv := rfl
@[simp] theorem acceptReadall_cfgout : (acceptReadall s).cfgout = s.cfgout := rfl
@[simp] theorem acceptReadall_cfgoutWritten : (acceptReadall s).cfgoutWritten = s.cfgoutWritten := rfl
@[simp] theorem acceptReadall_outcome : (acceptReadall s).outcome = s.outcome := rfl
@[simp] theorem acceptReadall_linkdown : (acceptReadall s).linkdown = s.linkdown := rfl
@[simp] theorem acceptReadall_done : (acceptReadall s).done = s.done := rfl
@[simp] theorem acceptReadall_rdValid : (acceptReadall s).rdValid = s.rdValid := rfl
@[simp] theorem acceptReadall_out : (acceptReadall s).out = s.out := rfl
@[simp] theorem acceptReadall_rxq : (acceptReadall s).rxq = s.rxq := rfl
@[simp] theorem acceptReadall_txq : (acceptReadall s).txq = s.txq := rfl
@[simp] theorem acceptReadall_tfail : (acceptReadall s).tfail = s.tfail := rfl
@[simp] theorem acceptReadall_cur : (acceptReadall s).cur = s.cur := rfl
@[simp] theorem acceptReadall_txReady : (acceptReadall s).txReady = s.txReady := rfl
@[simp] theorem acceptReadall_flushKeep : (acceptReadall s).flushKeep = s.flushKeep := rfl
@[simp] theorem acceptReadall_sched : (acceptReadall s).sched = s.sched := rfl
@[simp] theorem acceptReadall_answers : (acceptReadall s).answers = s.answers := rfl

/-! ### `arrive` -/

@[simp] theorem arrive_variant (b : Byte) : (arrive b s).variant = s.variant := rfl
@[simp] theorem arrive_fsm (b : Byte) : (arrive b s).fsm = s.fsm := rfl
@[simp] theorem arrive_op (b : Byte) : (arrive b s).op = s.op := rfl
@[simp] theorem arrive_drain (b : Byte) : (arrive b s).drain = s.drain := rfl
@[simp] theorem arrive_drainPh (b : Byte) : (arrive b s).drainPh = s.drainPh := rfl
@[simp] theorem arrive_midx (b : Byte) : (arrive b s).midx = s.midx := rfl
@[simp] theorem arrive_bidx (b : Byte) : (arrive b s).bidx = s.bidx := rfl
@[simp] theorem arrive_txidx (b : Byte) : (arrive b s).txidx = s.txidx := rfl
@[simp] theorem arrive_pbuf (b : Byte) : (arrive b s).pbuf = s.pbuf := rfl
@[simp] theorem arrive_rd (b : Byte) : (arrive b s).rd = s.rd := rfl
@[simp] theorem arrive_rdv (b : Byte) : (arrive b s).rdv = s.rdv := rfl
@[simp] theorem arrive_cfgout (b : Byte) : (arrive b s).cfgout = s.cfgout := rfl
@[simp] theorem arrive_cfgoutWritten (b : Byte) : (arrive b s).cfgoutWritten = s.cfgoutWritten := rfl
@[simp] theorem arrive_outcome (b : Byte) : (arrive b s).outcome = s.outcome := rfl
@[simp] theorem arrive_linkdown (b : Byte) : (arrive b s).linkdown = s.linkdown := rfl
@[simp] theorem arrive_done (b : Byte) : (arrive b s).done = s.done := rfl
@[simp] theorem arrive_rdValid (b : Byte) : (arrive b s).rdValid = s.rdValid := rfl
@[simp] theorem arrive_out (b : Byte) : (arrive b s).out = s.out := rfl
@[simp] theorem arrive_rxq (b : Byte) : (arrive b s).rxq = s.rxq ++ [b] := rfl
@[simp] theorem arrive_txq (b : Byte) : (arrive b s).txq = s.txq := rfl
@[simp] theorem arrive_tfail (b : Byte) : (arrive b s).tfail = s.tfail := rfl
@[simp] theorem arrive_cur (b : Byte) : (arrive b s).cur = s.cur := rfl
@[simp] theorem arrive_txReady (b : Byte) : (arrive b s).txReady = s.txReady := rfl
@[simp] theorem arrive_flushKeep (b : Byte) : (arrive b s).flushKeep = s.flushKeep := rfl
@[simp] theorem arrive_sched (b : Byte) : (arrive b s).sched = s.sched := rfl
@[simp] theorem arrive_answers (b : Byte) : (arrive b s).answers = s.answers := rfl

/-! ### `accept` -/

@[simp] theorem accept_variant : (accept s).variant = s.variant := rfl
@[simp] theorem accept_fsm : (accept s).fsm = s.fsm := rfl
@[simp] theorem accept_op : (accept s).op = s.op := rfl
@[simp] theorem accept_drain : (accept s).drain = s.drain := rfl
@[simp] theorem accept_drainPh : (accept s).drainPh = s.drainPh := rfl
@[simp] theorem accept_midx : (accept s).midx = s.midx := rfl
@[simp] theorem accept_bidx : (accept s).bidx = s.bidx := rfl
@[simp] theorem accept_txidx : (accept s).txidx = s.txidx := rfl
@[simp] theorem accept_pbuf : (accept s).pbuf = s.pbuf := rfl
@[simp] theorem accept_rd : (accept s).rd = s.rd := rfl
@[simp] theorem accept_rdv : (accept s).rdv = s.rdv := rfl
@[simp] theorem accept_cfgout : (accept s).cfgout = s.cfgout := rfl
@[simp] theorem accept_cfgoutWritten : (accept s).cfgoutWritten = s.cfgoutWritten := rfl
@[simp] theorem accept_outcome : (accept s).outcome = s.outcome := rfl
@[simp] theorem accept_linkdown : (accept s).linkdown = s.linkdown := rfl
@[simp] theorem accept_done : (accept s).done = s.done := rfl
@[simp] theorem accept_rdValid : (accept s).rdValid = s.rdValid := rfl
@[simp] theorem accept_out : (accept s).out = s.out := rfl
@[simp] theorem accept_rxq : (accept s).rxq = s.rxq := rfl
@[simp] theorem accept_txq : (accept s).txq = s.txq := rfl
@[simp] theorem accept_tfail : (accept s).tfail = s.tfail := rfl
@[simp] theorem accept_cur : (accept s).cur = s.cur := rfl
@[simp] theorem accept_txReady : (accept s).txReady = true := rfl
@[simp] theorem accept_flushKeep : (accept s).flushKeep = s.flushKeep := rfl
@[simp] theorem accept_sched : (accept s).sched = s.sched := rfl
@[simp] theorem accept_answers : (accept s).answers = s.answers := rfl

/-! ### `fail` -/

@[simp] theorem fail_variant : (fail s).variant = s.variant := rfl
@[simp] theorem fail_fsm : (fail s).fsm = s.fsm := rfl
@[simp] theorem fail_op : (fail s).op = s.op := rfl
@[simp] theorem fail_drain : (fail s).drain = s.drain := rfl
@[simp] theorem fail_drainPh : (fail s).drainPh = s.drainPh := rfl
@[simp] theorem fail_midx : (fail s).midx = s.midx := rfl
@[simp] theorem fail_bidx : (fail s).bidx = s.bidx := rfl
@[simp] theorem fail_txidx : (fail s).txidx = s.txidx := rfl
@[simp] theorem fail_pbuf : (fail s).pbuf = s.pbuf := rfl
@[simp] theorem fail_rd : (fail s).rd = s.rd := rfl
@[simp] theorem fail_rdv : (fail s).rdv = s.rdv := rfl
@[simp] theorem fail_cfgout : (fail s).cfgout = s.cfgout := rfl
@[simp] theorem fail_cfgoutWritten : (fail s).cfgoutWritten = s.cfgoutWritten := rfl
@[simp] theorem fail_outcome : (fail s).outcome = s.outcome := rfl
@[simp] theorem fail_linkdown : (fail s).linkdown = s.linkdown := rfl
@[simp] theorem fail_done : (fail s).done = s.done := rfl
@[simp] theorem fail_rdValid : (fail s).rdValid = s.rdValid := rfl
@[simp] theorem fail_out : (fail s).out = s.out := rfl
@[simp] theorem fail_rxq : (fail s).rxq = s.rxq := rfl
@[simp] theorem fail_txq : (fail s).txq = s.txq := rfl
@[simp] theorem fail_tfail : (fail s).tfail = true := rfl
@[simp] theorem fail_cur : (fail s).cur = s.cur := rfl
@[simp] theorem fail_txReady : (fail s).txReady = s.txReady := rfl
@[simp] theorem fail_flushKeep : (fail s).flushKeep = s.flushKeep := rfl
@[simp] theorem fail_sched : (fail s).sched = s.sched := rfl
@[simp] theorem fail_answers : (fail s).answers = s.answers := rfl

/-! ### `enterTurn` -/

@[simp] theorem enterTurn_variant : (enterTurn s).variant = s.variant := rfl
@[simp] theorem enterTurn_fsm : (enterTurn s).fsm = s.fsm := rfl
@[simp] theorem enterTurn_op : (enterTurn s).op = s.op := rfl
@[simp] theorem enterTurn_drain : (enterTurn s).drain = s.drain := rfl
@[simp] theorem enterTurn_drainPh : (enterTurn s).drainPh = s.drainPh := rfl
@[simp] theorem enterTurn_midx : (enterTurn s).midx = s.midx := rfl
@[simp] theorem enterTurn_bidx : (enterTurn s).bidx = s.bidx := rfl
@[simp] theorem enterTurn_txidx : (enterTurn s).txidx = s.txidx := rfl
@[simp] theorem enterTurn_pbuf : (enterTurn s).pbuf = s.pbuf := rfl
@[simp] theorem enterTurn_rd : (enterTurn s).rd = s.rd := rfl
@[simp] theorem enterTurn_rdv : (enterTurn s).rdv = s.rdv := rfl
@[simp] theorem enterTurn_cfgout : (enterTurn s).cfgout = s.cfgout := rfl
@[simp] theorem enterTurn_cfgoutWritten : (enterTurn s).cfgoutWritten = s.cfgoutWritten := rfl
@[simp] theorem enterTurn_outcome : (enterTurn s).outcome = s.outcome := rfl
@[simp] theorem enterTurn_linkdown : (enterTurn s).linkdown = s.linkdown := rfl
@[simp] theorem enterTurn_done : (enterTurn s).done = false := rfl
@[simp] theorem enterTurn_rdValid : (enterTurn s).rdValid = false := rfl
@[simp] theorem enterTurn_out : (enterTurn s).out = s.out := rfl
@[simp] theorem enterTurn_rxq : (enterTurn s).rxq = s.rxq := rfl
@[simp] theorem enterTurn_txq : (enterTurn s).txq = s.txq := rfl
@[simp] theorem enterTurn_tfail : (enterTurn s).tfail = s.tfail := rfl
@[simp] theorem enterTurn_cur : (enterTurn s).cur = s.cur := rfl
@[simp] theorem enterTurn_txReady : (enterTurn s).txReady = s.txReady := rfl
@[simp] theorem enterTurn_flushKeep : (enterTurn s).flushKeep = s.flushKeep := rfl
@[simp] theorem enterTurn_sched : (enterTurn s).sched = s.sched.tail := rfl
@[simp] theorem enterTurn_answers : (enterTurn s).answers = s.answers := rfl

/-! ### `setFlushKeep` -/

@[simp] theorem setFlushKeep_variant (n : Nat) : (setFlushKeep n s).variant = s.variant := rfl
@[simp] theorem setFlushKeep_fsm (n : Nat) : (setFlushKeep n s).fsm = s.fsm := rfl
@[simp] theorem setFlushKeep_op (n : Nat) : (setFlushKeep n s).op = s.op := rfl
@[simp] theorem setFlushKeep_drain (n : Nat) : (setFlushKeep n s).drain = s.drain := rfl
@[simp] theorem setFlushKeep_drainPh (n : Nat) : (setFlushKeep n s).drainPh = s.drainPh := rfl
@[simp] theorem setFlushKeep_midx (n : Nat) : (setFlushKeep n s).midx = s.midx := rfl
@[simp] theorem setFlushKeep_bidx (n : Nat) : (setFlushKeep n s).bidx = s.bidx := rfl
@[simp] theorem setFlushKeep_txidx (n : Nat) : (setFlushKeep n s).txidx = s.txidx := rfl
@[simp] theorem setFlushKeep_pbuf (n : Nat) : (setFlushKeep n s).pbuf = s.pbuf := rfl
@[simp] theorem setFlushKeep_rd (n : Nat) : (setFlushKeep n s).rd = s.rd := rfl
@[simp] theorem setFlushKeep_rdv (n : Nat) : (setFlushKeep n s).rdv = s.rdv := rfl
@[simp] theorem setFlushKeep_cfgout (n : Nat) : (setFlushKeep n s).cfgout = s.cfgout := rfl
@[simp] theorem setFlushKeep_cfgoutWritten (n : Nat) : (setFlushKeep n s).cfgoutWritten = s.cfgoutWritten := rfl
@[simp] theorem setFlushKeep_outcome (n : Nat) : (setFlushKeep n s).outcome = s.outcome := rfl
@[simp] theorem setFlushKeep_linkdown (n : Nat) : (setFlushKeep n s).linkdown = s.linkdown := rfl
@[simp] theorem setFlushKeep_done (n : Nat) : (setFlushKeep n s).done = s.done := rfl
@[simp] theorem setFlushKeep_rdValid (n : Nat) : (setFlushKeep n s).rdValid = s.rdValid := rfl
@[simp] theorem setFlushKeep_out (n : Nat) : (setFlushKeep n s).out = s.out := rfl
@[simp] theorem setFlushKeep_rxq (n : Nat) : (setFlushKeep n s).rxq = s.rxq := rfl
@[simp] theorem setFlushKeep_txq (n : Nat) : (setFlushKeep n s).txq = s.txq := rfl
@[simp] theorem setFlushKeep_tfail (n : Nat) : (setFlushKeep n s).tfail = s.tfail := rfl
@[simp] theorem setFlushKeep_cur (n : Nat) : (setFlushKeep n s).cur = s.cur := rfl
@[simp] theorem setFlushKeep_txReady (n : Nat) : (setFlushKeep n s).txReady = s.txReady := rfl
@[simp] theorem setFlushKeep_flushKeep (n : Nat) : (setFlushKeep n s).flushKeep = n := rfl
@[simp] theorem setFlushKeep_sched (n : Nat) : (setFlushKeep n s).sched = s.sched := rfl
@[simp] theorem setFlushKeep_answers (n : Nat) : (setFlushKeep n s).answers = s.answers := rfl

end Sys2Proof.Machine
end

