-- ==== Sys2Proof/Laws/Ops.lean ====
section
/-! SUPPORT. What each shared operation and each step rule can do, said once: a pop, a push, a discard, admission, and
the inversion of every step of the block. -/

namespace Sys2Proof.Machine

/-! ### The transport's primitives -/

/-- A pop of a queue with a byte in it (R43). -/
theorem rxPop_byte {s : State} {b : Byte} {q : List Byte} (hf : s.tfail = false) (hq : s.rxq = b :: q) :
    rxPop s = .byte b { s with rxq := q, cur := s.cur + 1 } := by
  simp [rxPop, hf, hq]

/-- A pop of an empty queue waits (R43). -/
theorem rxPop_hold {s : State} (hf : s.tfail = false) (hq : s.rxq = []) : rxPop s = .hold := by
  simp [rxPop, hf, hq]

/-- A pop of a failed transport (R43, R182). -/
theorem rxPop_failed {s : State} (hf : s.tfail = true) : rxPop s = .failed := by
  simp [rxPop, hf]

/-- The three cases of a pop (R43). -/
theorem rxPop_cases (s : State) :
    (s.tfail = true ∧ rxPop s = .failed) ∨ (s.tfail = false ∧ s.rxq = [] ∧ rxPop s = .hold) ∨
    ∃ b q, s.tfail = false ∧ s.rxq = b :: q ∧ rxPop s = .byte b { s with rxq := q, cur := s.cur + 1 } := by
  by_cases hf : s.tfail = true
  · exact .inl ⟨hf, rxPop_failed hf⟩
  · have hf := Bool.not_eq_true _ ▸ hf
    cases hq : s.rxq with
    | nil => exact .inr (.inl ⟨hf, rfl, rxPop_hold hf hq⟩)
    | cons b q => exact .inr (.inr ⟨b, q, hf, rfl, rxPop_byte hf hq⟩)

/-- The three cases of a push (R47). -/
theorem txPush_cases (b : Byte) (s : State) :
    (s.tfail = true ∧ txPush b s = .failed) ∨ (s.tfail = false ∧ s.txReady = false ∧ txPush b s = .hold) ∨
    (s.tfail = false ∧ s.txReady = true ∧ txPush b s = .pushed { s with txq := s.txq ++ [b], txReady := false }) := by
  cases hf : s.tfail <;> cases hr : s.txReady <;> simp [txPush, hf, hr]

/-- What a discard leaves is the end of the queue, and it drops as many bytes as the cursor counts (R46). -/
theorem afterFlush_spec (keep : Nat) (q : List Byte) :
    ∃ dropped, q = dropped ++ afterFlush keep q ∧ dropped.length = q.length - keep :=
  ⟨q.take (q.length - keep), by simp [afterFlush], by simp⟩

/-- An exact discard leaves nothing (R46). -/
@[simp] theorem afterFlush_zero (q : List Byte) : afterFlush 0 q = [] := by simp [afterFlush]

/-- Admission (R187). -/
theorem admitted_iff (s : State) : admitted s = true ↔ s.op = .none ∧ s.linkdown = false ∧ s.variant ≠ none := by
  simp [admitted, Option.isSome_iff_ne_none, and_assoc]

/-! ### The step rules -/

/-- A search step (R155). -/
theorem searchStep_cases (v : Variant) (s : State) :
    (s.tfail = true ∧ searchStep v s = raiseTransportError s) ∨ (s.tfail = false ∧ s.rxq = [] ∧ searchStep v s = s) ∨
    ∃ b q, s.tfail = false ∧ s.rxq = b :: q ∧
      searchStep v s = searchMove (matchNext (hdr v) s.midx b) { s with rxq := q, cur := s.cur + 1 } := by
  obtain ⟨h, e⟩ | ⟨h, h', e⟩ | ⟨b, q, h, h', e⟩ := rxPop_cases s
  · exact .inl ⟨h, by simp [searchStep, e]⟩
  · exact .inr (.inl ⟨h, h', by simp [searchStep, e]⟩)
  · exact .inr (.inr ⟨b, q, h, h', by simp [searchStep, e]⟩)

/-- A body step (R157). -/
theorem bodyStep_cases (s : State) :
    (s.tfail = true ∧ bodyStep s = raiseTransportError s) ∨ (s.tfail = false ∧ s.rxq = [] ∧ bodyStep s = s) ∨
    ∃ b q, s.tfail = false ∧ s.rxq = b :: q ∧
      bodyStep s = { s with rxq := q, cur := s.cur + 1, pbuf := s.pbuf.set s.bidx b, bidx := s.bidx + 1 } := by
  obtain ⟨h, e⟩ | ⟨h, h', e⟩ | ⟨b, q, h, h', e⟩ := rxPop_cases s
  · exact .inl ⟨h, by simp [bodyStep, e]⟩
  · exact .inr (.inl ⟨h, h', by simp [bodyStep, e]⟩)
  · exact .inr (.inr ⟨b, q, h, h', by simp [bodyStep, e]⟩)

/-- A send step (R144). -/
theorem sendStep_cases (s : State) :
    (s.tfail = true ∧ sendStep s = raiseTransportError s) ∨ (s.tfail = false ∧ s.txReady = false ∧ sendStep s = s) ∨
    (s.tfail = false ∧ s.txReady = true ∧
      sendStep s =
        { s with txq := s.txq ++ [s.cfgout.getD s.txidx 0], txReady := false, txidx := s.txidx + 1 }) := by
  obtain ⟨h, e⟩ | ⟨h, h', e⟩ | ⟨h, h', e⟩ := txPush_cases (s.cfgout.getD s.txidx 0) s
  · exact .inl ⟨h, by simp only [sendStep, e]⟩
  · exact .inr (.inl ⟨h, h', by simp only [sendStep, e]⟩)
  · exact .inr (.inr ⟨h, h', by simp only [sendStep, e]⟩)

/-- A flush step (R154). -/
theorem drainFlushStep_cases (s : State) :
    (s.tfail = true ∧ drainFlushStep s = { s with drainPh := .no }) ∨
    (s.tfail = false ∧
      drainFlushStep s =
        { s with
          drainPh := .no, rxq := afterFlush s.flushKeep s.rxq, cur := s.cur + (s.rxq.length - s.flushKeep) }) := by
  cases h : s.tfail <;> simp [drainFlushStep, rxFlush, h]

/-- The condition under which each rule is enabled (R150). -/
theorem enabledRule_spec (s : State) :
    match enabledRule s with
    | .quiet => True
    | .drainCheck v => s.variant = some v ∧ s.op = .read1 ∧ s.fsm = .synchronizing ∧ s.drainPh = .check
    | .drainFlush =>
        (∃ v, s.variant = some v) ∧ (s.op = .read1 ∨ s.op = .readAll) ∧ s.fsm = .synchronizing ∧ s.drainPh = .flush
    | .search v =>
        s.variant = some v ∧ (s.op = .read1 ∨ s.op = .readAll) ∧ s.fsm = .synchronizing ∧ s.drainPh = .no
    | .body =>
        (s.op = .read1 ∨ s.op = .readAll) ∧ s.fsm = .bodyPending ∧ ∃ v, s.variant = some v ∧ s.bidx < blen v
    | .decode v =>
        s.variant = some v ∧ (s.op = .read1 ∨ s.op = .readAll) ∧ s.fsm = .bodyPending ∧ s.bidx = blen v
    | .loopTest v => s.variant = some v ∧ s.op = .readAll ∧ (s.fsm = .idle ∨ s.fsm = .decoded)
    | .send => s.op = .cfgEnc ∧ s.txidx < 9
    | .complete => s.op = .cfgEnc ∧ s.txidx = 9 := by
  generalize hr : enabledRule s = r
  unfold enabledRule enabledReadAt enabledRead at hr
  (repeat' split at hr) <;> subst hr <;> simp_all

end Sys2Proof.Machine
end

