-- ==== Sys2Proof/Laws/Step.lean ====
section
/-! SUPPORT. What a step can do, said once: how a step enters its turn, what each kind of instruction may change, and
the inversion of a block turn and of a request. -/

namespace Sys2Proof.Machine

theorem enterTurn_eq (s : State) :
    enterTurn s = { s with sched := s.sched.tail, done := false, rdValid := false } := rfl

/-- The block's turn. -/
theorem step_block {s : State} (h : nextTurn s = .block) : step s = blockTurn (enterTurn s) := by
  simp [step, h, takeTurn]

/-- A request's turn. -/
theorem step_host {s : State} {r : Request} (h : nextTurn s = .host r) : step s = present r (enterTurn s) := by
  simp [step, h, takeTurn]

/-- A packet instruction does a decode step with some Reading (R126 to R128, R158). -/
theorem exec_packet {i : Instr} {v : Variant} (h : i.slot = .packet v) (s : State) :
    ∃ r, exec i s = .next (decodeStep r s) := by
  cases i <;> simp [Instr.slot] at h <;> exact ⟨_, rfl⟩

/-- An instruction of a pure unit's port adds one answer or is refused (R55). -/
theorem exec_pure {i : Instr} {p : Port} (h : i.slot = .port p) (hp : p ≠ .cmd) (s : State) :
    (∃ a, exec i s = .next (answer a s)) ∨ exec i s = .refused .shortBody := by
  cases i <;> simp [Instr.slot] at h <;> (try exact absurd h.symm hp) <;> (try exact .inl ⟨_, rfl⟩)
  all_goals
    simp only [exec, execCsumIn, execCsumValid]
    split
    · exact .inl ⟨_, rfl⟩
    · exact .inr rfl

/-- A host command is accepted, ends in a configuration error, or is not admitted (R140, R151, R160, R187). -/
theorem exec_cmd {i : Instr} (h : i.slot = .port .cmd) (s : State) :
    (admitted s = true ∧
      ((∃ speed filter zero, exec i s = .next (acceptCfgenc (cfgFrame speed filter zero) s)) ∨
        exec i s = .next (raiseConfigurationError s) ∨
        (∃ d, i = .read1 d ∧ exec i s = .next (acceptRead1 d s)) ∨
        exec i s = .next (acceptReadall s))) ∨
    (admitted s = false ∧ exec i s = .next (refuseCommand s)) := by
  cases i <;> simp [Instr.slot] at h
  case cfgenc a b z =>
    simp only [exec, execCfgenc]
    cases ha : admitted s
    · exact .inr ⟨rfl, rfl⟩
    · refine .inl ⟨rfl, ?_⟩
      simp only [if_true, frameOf]
      split
      · rename_i hf
        split at hf
        · simp at hf; subst hf; exact .inl ⟨_, _, _, rfl⟩
        · simp at hf
      · exact .inr (.inl rfl)
  all_goals
    simp only [exec, execRead1, execReadall]
    by_cases ha : admitted s = true
    · rw [if_pos ha]
      refine .inl ⟨ha, ?_⟩
      first
      | exact .inr (.inr (.inl ⟨_, rfl, rfl⟩))
      | exact .inr (.inr (.inr rfl))
    · rw [if_neg ha]
      exact .inr ⟨by simpa using ha, rfl⟩

/-- The inversion of a request's turn. -/
theorem present_next {r : Request} {s t : State} (h : present r s = .next t) :
    (r.port = .cmd ∧ admitted s = true ∧
      ((∃ speed filter zero, t = acceptCfgenc (cfgFrame speed filter zero) s) ∨ t = raiseConfigurationError s ∨
        (∃ d, decode (.port r.port) r.bytes = .instr (.read1 d) ∧ t = acceptRead1 d s) ∨ t = acceptReadall s)) ∨
    (r.port = .cmd ∧ t = refuseCommand s) ∨ (r.port ≠ .cmd ∧ ∃ a, t = answer a s) := by
  unfold present at h
  split at h
  · rename_i i hd
    have hs := decode_port_slot hd
    by_cases hp : r.port = .cmd
    · rw [hp] at hs
      obtain ⟨ha, hc⟩ | ⟨ha, hc⟩ := exec_cmd hs s
      · refine .inl ⟨hp, ha, ?_⟩
        obtain ⟨a, b, c, e⟩ | e | ⟨d, hi, e⟩ | e := hc <;> rw [e] at h <;> cases h
        · exact .inl ⟨_, _, _, rfl⟩
        · exact .inr (.inl rfl)
        · exact .inr (.inr (.inl ⟨d, hi ▸ hd, rfl⟩))
        · exact .inr (.inr (.inr rfl))
      · rw [hc] at h; cases h; exact .inr (.inl ⟨hp, rfl⟩)
    · obtain ⟨a, e⟩ | e := exec_pure hs hp s <;> rw [e] at h <;> cases h
      exact .inr (.inr ⟨hp, a, rfl⟩)
  · unfold rejectRequest at h
    split at h <;> cases h
    rename_i hp
    exact .inr (.inl ⟨hp.1, rfl⟩)

/-- The inversion of a block turn: which rule was enabled and what it did (R150). -/
theorem blockTurn_next {s t : State} (h : blockTurn s = .next t) :
    t = s ∨
    (∃ v, s.variant = some v ∧ s.op = .read1 ∧ s.fsm = .synchronizing ∧ s.drainPh = .check ∧ t = drainCheckStep v s) ∨
    ((∃ v, s.variant = some v) ∧ (s.op = .read1 ∨ s.op = .readAll) ∧ s.fsm = .synchronizing ∧ s.drainPh = .flush ∧
      t = drainFlushStep s) ∨
    (∃ v, s.variant = some v ∧ (s.op = .read1 ∨ s.op = .readAll) ∧ s.fsm = .synchronizing ∧ s.drainPh = .no ∧
      t = searchStep v s) ∨
    ((s.op = .read1 ∨ s.op = .readAll) ∧ s.fsm = .bodyPending ∧ (∃ v, s.variant = some v ∧ s.bidx < blen v) ∧
      t = bodyStep s) ∨
    (∃ v i, s.variant = some v ∧ (s.op = .read1 ∨ s.op = .readAll) ∧ s.fsm = .bodyPending ∧ s.bidx = blen v ∧
      decode (.packet v) (bufferedPacket v s) = .instr i ∧ exec i s = .next t) ∨
    (∃ v, s.variant = some v ∧ s.op = .readAll ∧ (s.fsm = .idle ∨ s.fsm = .decoded) ∧ t = loopTestStep v s) ∨
    (s.op = .cfgEnc ∧ s.txidx < 9 ∧ t = sendStep s) ∨ (s.op = .cfgEnc ∧ s.txidx = 9 ∧ t = completeStep s) := by
  have hr := enabledRule_spec s
  unfold blockTurn at h
  cases he : enabledRule s <;> simp only [he] at h hr
  case decode v =>
    unfold runPacket at h
    split at h
    · exact .inr (.inr (.inr (.inr (.inr (.inl ⟨v, _, hr.1, hr.2.1, hr.2.2.1, hr.2.2.2, by assumption, h⟩)))))
    · cases h
  all_goals cases h; simp_all

end Sys2Proof.Machine
end

