-- ==== Sys2Proof/Laws/Packets.lean ====
section
/-! SUPPORT. Packets: the checksum over a body with its field split off, a parser's meaning in terms of `PARSE`
(spec/42_packet_parser.md R123), and what the bytes in the buffer decode to. -/

namespace Sys2Proof.Machine

theorem byteSum_append (a b : List Byte) : byteSum (a ++ b) = byteSum a + byteSum b := by simp [byteSum]

/-- The sum does not cover the last two bytes (R90). -/
theorem checksumIn_append (header covered : List Byte) (x y : Byte) :
    checksumIn header (covered ++ [x, y]) = BitVec.ofNat 16 (byteSum header + byteSum covered) := by
  have e : (covered ++ [x, y]).length - 2 = covered.length := by simp
  simp [checksumIn]

/-- The validity bit (R91): the sum against the field in the last two bytes. -/
theorem checksumOk_append (header covered : List Byte) (x y : Byte) :
    checksumOk header (covered ++ [x, y])
      = ((byteSum header + byteSum covered) % 65536 == 256 * x.toNat + y.toNat) := by
  have e : (covered ++ [x, y]).length - 2 = covered.length := by simp
  unfold checksumOk receivedChecksum
  rw [checksumIn_append, e, List.drop_left]
  rw [Bool.eq_iff_iff]
  simp only [beq_iff_eq, Option.some.injEq]
  rw [← BitVec.toNat_inj, be16_toNat, BitVec.toNat_ofNat]
  omega

/-- `PARSE` gives a Reading of the variant's shape (R18, R123). -/
theorem parse_hasShape {v : Variant} {body : List Byte} {r : Reading} (h : parse v body = some r) : r.HasShape v := by
  unfold parse at h
  split at h
  · cases h
    cases v <;> simp [Reading.HasShape]
  · cases h

/-- What a reset leaves in `RD` has the shape of the variant it samples (R18). -/
@[simp] theorem blank_hasShape (v : Variant) : (Reading.blank (some v)).HasShape v := by
  cases v <;> simp [Reading.HasShape, Reading.blank, Reading.zero]

/-- What a parser writes is `PARSE` of its body (R123, R126 to R128). -/
theorem exec_packet_parse {i : Instr} {v : Variant} (h : i.slot = .packet v) :
    ∃ r, parse v ((encode i).drop 4) = some r ∧ ∀ s, exec i s = .next (decodeStep r s) := by
  cases i <;> simp [Instr.slot] at h <;> subst h
  case parseC c st f k =>
    refine ⟨_, ?_, fun s => rfl⟩
    have := checksumOk_append (hdr .compact) ([c, st, f.x, f.y, f.z].flatMap halfBytes)
      (k.extractLsb' 8 8) (k.extractLsb' 0 8)
    simp only [parse, readingOf, packetBody]
    simp only [encode, packetBody, tripleHalves, List.flatMap_cons, List.flatMap_nil, List.append_nil,
      List.cons_append, List.nil_append, hdr, halfBytes, List.drop_succ_cons, List.drop_zero] at this ⊢
    rw [this]
    simp [blen, total, hlen, ns, lanes, fieldAt, sampleAt, forceAt, List.range_succ, scaleTriple]
  case parseE c st f t k =>
    refine ⟨_, ?_, fun s => rfl⟩
    have := checksumOk_append (hdr .extended) ([c, st, f.x, f.y, f.z, t.x, t.y, t.z].flatMap halfBytes)
      (k.extractLsb' 8 8) (k.extractLsb' 0 8)
    simp only [parse, readingOf, packetBody]
    simp only [encode, packetBody, tripleHalves, List.flatMap_cons, List.flatMap_nil, List.append_nil,
      List.cons_append, List.nil_append, hdr, halfBytes, List.drop_succ_cons, List.drop_zero] at this ⊢
    rw [this]
    simp [blen, total, hlen, ns, lanes, fieldAt, sampleAt, forceAt, List.range_succ, scaleTriple]
  case parseM c st f0 f1 f2 f3 k =>
    refine ⟨_, ?_, fun s => rfl⟩
    have := checksumOk_append (hdr .multi)
      ([c, st, f0.x, f0.y, f0.z, f1.x, f1.y, f1.z, f2.x, f2.y, f2.z, f3.x, f3.y, f3.z].flatMap halfBytes)
      (k.extractLsb' 8 8) (k.extractLsb' 0 8)
    simp only [parse, readingOf, packetBody]
    simp only [encode, packetBody, tripleHalves, List.flatMap_cons, List.flatMap_nil, List.append_nil,
      List.cons_append, List.nil_append, hdr, halfBytes, List.drop_succ_cons, List.drop_zero] at this ⊢
    rw [this]
    simp [blen, total, hlen, ns, lanes, fieldAt, sampleAt, forceAt, List.range_succ, scaleTriple]

/-- The bytes that a packet instruction is decoded from are its encoding. -/
theorem encode_of_decode_packet {v : Variant} {bs : List Byte} {i : Instr} (h : decode (.packet v) bs = .instr i) :
    encode i = bs ∧ i.slot = .packet v := by
  simp only [decode, decodePacket] at h
  split at h
  · cases h
  · rename_i body hb
    rw [afterPrefix_eq_some] at hb
    subst hb
    cases hh : halves body with
    | none => cases v <;> simp [decodeBody, hh, compactFields, extendedFields, multiFields] at h
    | some ws =>
      have hbytes := bytes_of_halves hh
      subst hbytes
      cases v <;> simp only [decodeBody, hh, compactFields, extendedFields, multiFields] at h <;> split at h <;>
        simp at h <;> rename_i e <;> simp at e <;> subst e <;> subst h <;>
        simp [encode, packetBody, tripleHalves, Instr.slot, hdr, halfBytes]

/-- A body of the variant's length decodes. -/
theorem decode_body {v : Variant} {body : List Byte} (h : body.length = blen v) :
    ∃ i, decode (.packet v) (hdr v ++ body) = .instr i := by
  obtain ⟨ws, hw⟩ := halves_of_even (bs := body) (by rw [h]; cases v <;> rfl)
  have hl : 2 * ws.length = blen v := by rw [← halves_length hw, h]
  simp only [decode, decodePacket, afterPrefix_append, decodeBody, hw]
  cases v
  · replace hl : ws.length = 6 := by simp [blen, total, hlen] at hl; omega
    rcases ws with _|⟨a,_|⟨b,_|⟨c,_|⟨d,_|⟨e,_|⟨f,_|⟨g,ws⟩⟩⟩⟩⟩⟩⟩ <;> simp at hl
    exact ⟨_, rfl⟩
  · replace hl : ws.length = 9 := by simp [blen, total, hlen] at hl; omega
    rcases ws with _|⟨a,_|⟨b,_|⟨c,_|⟨d,_|⟨e,_|⟨f,_|⟨g,_|⟨h,_|⟨i,_|⟨j,ws⟩⟩⟩⟩⟩⟩⟩⟩⟩⟩ <;> simp at hl
    exact ⟨_, rfl⟩
  · replace hl : ws.length = 15 := by simp [blen, total, hlen] at hl; omega
    rcases ws with _|⟨a,_|⟨b,_|⟨c,_|⟨d,_|⟨e,_|⟨f,_|⟨g,_|⟨h,_|⟨i,_|⟨j,_|⟨k,_|⟨l,_|⟨m,_|⟨n,_|⟨o,_|⟨p,ws⟩⟩⟩⟩⟩⟩⟩⟩⟩⟩⟩⟩⟩⟩⟩⟩ <;>
      simp at hl
    exact ⟨_, rfl⟩

/-- The decode step of a whole body: it decodes, and what runs writes `PARSE` of it. -/
theorem exec_body {v : Variant} {body : List Byte} (h : body.length = blen v) :
    ∃ i r, decode (.packet v) (hdr v ++ body) = .instr i ∧ parse v body = some r ∧
      ∀ s, exec i s = .next (decodeStep r s) := by
  obtain ⟨i, hi⟩ := decode_body h
  obtain ⟨e, hs⟩ := encode_of_decode_packet hi
  obtain ⟨r, hr, he⟩ := exec_packet_parse hs
  refine ⟨i, r, hi, ?_, he⟩
  rw [e] at hr
  rw [← hr]
  cases v <;> rfl

end Sys2Proof.Machine
end

