-- ==== Sys2Proof/Laws/Moves.lean ====
section
/-! SUPPORT. Every step of the machine, said once: `Move k u t` lists all that turn `k` can do to the state `u` in which
it is taken, guards included, and `step_move` says that a step does one of these. -/

namespace Sys2Proof.Machine

/-- All that a turn can do. -/
inductive Move (k : Turn) (u : State) : State → Prop where
  /-- The block waits or is quiescent (R43, R47, R202). -/
  | wait : k = .block → Move k u u
  /-- R153. -/
  | drainCheck (v : Variant) : k = .block → u.variant = some v → u.op = .read1 → u.fsm = .synchronizing →
      u.drainPh = .check → Move k u { u with drainPh := if total v < u.rxq.length then .flush else .no }
  /-- R154 with a failed transport (R46). -/
  | drainFailed (v : Variant) : k = .block → u.variant = some v → (u.op = .read1 ∨ u.op = .readAll) →
      u.fsm = .synchronizing → u.drainPh = .flush → u.tfail = true → Move k u { u with drainPh := .no }
  /-- R154. -/
  | drainFlush (v : Variant) (dropped kept : List Byte) : k = .block → u.variant = some v →
      (u.op = .read1 ∨ u.op = .readAll) → u.fsm = .synchronizing → u.drainPh = .flush → u.tfail = false →
      u.rxq = dropped ++ kept → kept = afterFlush u.flushKeep u.rxq →
      Move k u { u with drainPh := .no, rxq := kept, cur := u.cur + dropped.length }
  /-- A pop that finds the transport failed (R162, R185). -/
  | popFailed (v : Variant) : k = .block → u.variant = some v → (u.op = .read1 ∨ u.op = .readAll) →
      (u.fsm = .synchronizing ∧ u.drainPh = .no ∨ u.fsm = .bodyPending ∧ u.bidx < blen v) → u.tfail = true →
      Move k u { u with
        outcome := .transportError, linkdown := true, op := .none, done := true, fsm := .idle, drainPh := .no }
  /-- R155: the header is complete. -/
  | searchHit (v : Variant) (b : Byte) (q : List Byte) : k = .block → u.variant = some v →
      (u.op = .read1 ∨ u.op = .readAll) → u.fsm = .synchronizing → u.drainPh = .no → u.tfail = false →
      u.rxq = b :: q → matchNext (hdr v) u.midx b = 4 →
      Move k u { u with rxq := q, cur := u.cur + 1, midx := 4, fsm := .bodyPending, bidx := 0 }
  /-- R155: it is not. -/
  | searchOn (v : Variant) (b : Byte) (q : List Byte) : k = .block → u.variant = some v →
      (u.op = .read1 ∨ u.op = .readAll) → u.fsm = .synchronizing → u.drainPh = .no → u.tfail = false →
      u.rxq = b :: q → matchNext (hdr v) u.midx b ≠ 4 →
      Move k u { u with rxq := q, cur := u.cur + 1, midx := matchNext (hdr v) u.midx b }
  /-- R157. -/
  | body (v : Variant) (b : Byte) (q : List Byte) : k = .block → u.variant = some v →
      (u.op = .read1 ∨ u.op = .readAll) → u.fsm = .bodyPending → u.bidx < blen v → u.tfail = false → u.rxq = b :: q →
      Move k u { u with rxq := q, cur := u.cur + 1, pbuf := u.pbuf.set u.bidx b, bidx := u.bidx + 1 }
  /-- R158 in a READ1. -/
  | decodeRead1 (v : Variant) (r : Reading) : k = .block → u.variant = some v → u.op = .read1 →
      u.fsm = .bodyPending → u.bidx = blen v → parse v (u.pbuf.take (blen v)) = some r →
      Move k u { u with
        rd := r, rdv := true, rdValid := true, out := u.out ++ [r], fsm := .decoded, op := .none, outcome := .ok,
        done := true }
  /-- R158 in a READALL. -/
  | decodeReadall (v : Variant) (r : Reading) : k = .block → u.variant = some v → u.op = .readAll →
      u.fsm = .bodyPending → u.bidx = blen v → parse v (u.pbuf.take (blen v)) = some r →
      Move k u { u with rd := r, rdv := true, rdValid := true, out := u.out ++ [r], fsm := .decoded }
  /-- R160: one more packet. -/
  | loopOn (v : Variant) : k = .block → u.variant = some v → u.op = .readAll → (u.fsm = .idle ∨ u.fsm = .decoded) →
      total v ≤ u.rxq.length → Move k u { u with fsm := .synchronizing, midx := 0 }
  /-- R160: the end. -/
  | loopEnd (v : Variant) : k = .block → u.variant = some v → u.op = .readAll → (u.fsm = .idle ∨ u.fsm = .decoded) →
      u.rxq.length < total v → Move k u { u with op := .none, outcome := .ok, done := true }
  /-- A push that finds the transport failed (R144, R185). -/
  | sendFailed : k = .block → u.op = .cfgEnc → u.txidx < 9 → u.tfail = true → Move k u (raiseTransportError u)
  /-- R144. -/
  | send : k = .block → u.op = .cfgEnc → u.txidx < 9 → u.tfail = false → u.txReady = true →
      Move k u { u with txq := u.txq ++ [u.cfgout.getD u.txidx 0], txReady := false, txidx := u.txidx + 1 }
  /-- R145. -/
  | complete : k = .block → u.op = .cfgEnc → u.txidx = 9 →
      Move k u { u with op := .none, outcome := .ok, done := true }
  /-- R143. -/
  | cfgenc (r : Request) (speed : Speed) (filter : Filter) (zero : Bool) : k = .host r → r.port = .cmd →
      u.op = .none → u.linkdown = false → u.variant ≠ none →
      Move k u { u with cfgout := cfgFrame speed filter zero, cfgoutWritten := true, txidx := 0, op := .cfgEnc }
  /-- R184. -/
  | configurationError (r : Request) : k = .host r → r.port = .cmd → u.op = .none → u.linkdown = false →
      u.variant ≠ none → Move k u { u with outcome := .configurationError, done := true }
  /-- R151. -/
  | read1 (r : Request) (d : Bool) : k = .host r → r.port = .cmd →
      decode (.port r.port) r.bytes = .instr (.read1 d) → u.op = .none → u.linkdown = false → u.variant ≠ none →
      Move k u { u with
        op := .read1, drain := d, drainPh := if d then .check else .no, fsm := .synchronizing, midx := 0 }
  /-- R160. -/
  | readall (r : Request) : k = .host r → r.port = .cmd → u.op = .none → u.linkdown = false → u.variant ≠ none →
      Move k u { u with op := .readAll, drain := false, drainPh := .no }
  /-- R187, quiescent. -/
  | refuse (r : Request) : k = .host r → r.port = .cmd → u.op = .none →
      Move k u { u with outcome := .refused, done := true }
  /-- R187, busy. -/
  | ignore (r : Request) : k = .host r → r.port = .cmd → u.op ≠ .none → Move k u u
  /-- A copy of a pure unit answers (R55). -/
  | answer (r : Request) (a : Answer) : k = .host r → r.port ≠ .cmd → Move k u { u with answers := u.answers ++ [a] }
  /-- R58. -/
  | arrive (b : Byte) : k = .arrive b → Move k u { u with rxq := u.rxq ++ [b] }
  /-- R58. -/
  | accept : k = .accept → Move k u { u with txReady := true }
  /-- R58. -/
  | fail : k = .fail → Move k u { u with tfail := true }
  /-- R46. -/
  | flushKeeps (n : Nat) : k = .flushKeeps n → Move k u { u with flushKeep := n }
  /-- R200. -/
  | reset (strap : Option Variant) (reopened : Bool) : k = .reset strap reopened →
      Move k u (resetBlock strap reopened u)

/-- A step takes its turn in the entered state. -/
theorem step_takeTurn (s : State) : step s = takeTurn (nextTurn s) (enterTurn s) := rfl

/-- A block turn is a move. -/
theorem blockTurn_move {u t : State} (h : blockTurn u = .next t) : Move .block u t := by
  obtain h | ⟨v, a1, a2, a3, a4, h⟩ | ⟨⟨v, a1⟩, a2, a3, a4, h⟩ | ⟨v, a1, a2, a3, a4, h⟩ | ⟨a1, a2, ⟨v, a3, a4⟩, h⟩ |
    ⟨v, i, a1, a2, a3, a4, hd, h⟩ | ⟨v, a1, a2, a3, h⟩ | ⟨a1, a2, h⟩ | ⟨a1, a2, h⟩ := blockTurn_next h
  · rw [h]; exact .wait rfl
  · rw [h]; exact .drainCheck v rfl a1 a2 a3 a4
  · obtain ⟨f, e⟩ | ⟨f, e⟩ := drainFlushStep_cases u <;> rw [h, e]
    · exact .drainFailed v rfl a1 a2 a3 a4 f
    · obtain ⟨d, e1, e2⟩ := afterFlush_spec u.flushKeep u.rxq
      rw [← e2]
      exact .drainFlush v d _ rfl a1 a2 a3 a4 f e1 rfl
  · obtain ⟨f, e⟩ | ⟨-, -, e⟩ | ⟨b, q, f, g, e⟩ := searchStep_cases v u <;> rw [h, e]
    · have := Move.popFailed v rfl a1 a2 (.inl ⟨a3, a4⟩) f
      simpa [raiseTransportError, endOp, a3, fsmAfterFailure] using this
    · exact .wait rfl
    · unfold searchMove
      split
      · rename_i hm
        rw [hm]
        exact .searchHit v b q rfl a1 a2 a3 a4 f g hm
      · exact .searchOn v b q rfl a1 a2 a3 a4 f g (by assumption)
  · obtain ⟨f, e⟩ | ⟨-, -, e⟩ | ⟨b, q, f, g, e⟩ := bodyStep_cases u <;> rw [h, e]
    · have := Move.popFailed v rfl a3 a1 (.inr ⟨a2, a4⟩) f
      simpa [raiseTransportError, endOp, a2, fsmAfterFailure] using this
    · exact .wait rfl
    · exact .body v b q rfl a3 a1 a2 a4 f g
  · obtain ⟨e, hs⟩ := encode_of_decode_packet hd
    obtain ⟨r, hr, he⟩ := exec_packet_parse hs
    rw [he] at h
    cases h
    rw [e] at hr
    replace hr : parse v (u.pbuf.take (blen v)) = some r := by
      rw [← hr]; unfold bufferedPacket; cases v <;> rfl
    rcases a2 with a2 | a2
    · have := Move.decodeRead1 v r rfl a1 a2 a3 a4 hr
      simpa [decodeStep, afterReading, a2, endOp, emit] using this
    · have := Move.decodeReadall v r rfl a1 a2 a3 a4 hr
      simpa [decodeStep, afterReading, a2, emit] using this
  · rw [h]
    unfold loopTestStep
    split
    · exact .loopOn v rfl a1 a2 a3 (by assumption)
    · exact .loopEnd v rfl a1 a2 a3 (by simpa [rxAvail] using (by assumption : ¬ total v ≤ rxAvail u))
  · obtain ⟨f, e⟩ | ⟨-, -, e⟩ | ⟨f, g, e⟩ := sendStep_cases u <;> rw [h, e]
    · exact .sendFailed rfl a1 a2 f
    · exact .wait rfl
    · exact .send rfl a1 a2 f g
  · rw [h]; exact .complete rfl a1 a2

/-- A request is a move. -/
theorem present_move {r : Request} {u t : State} (h : present r u = .next t) : Move (.host r) u t := by
  obtain ⟨hp, ha, h⟩ | ⟨hp, h⟩ | ⟨hp, a, h⟩ := present_next h
  · obtain ⟨x, y, z⟩ := (admitted_iff _).1 ha
    obtain ⟨_, _, _, h⟩ | h | ⟨d, hd, h⟩ | h := h <;> rw [h]
    · exact .cfgenc r _ _ _ rfl hp x y z
    · exact .configurationError r rfl hp x y z
    · exact .read1 r d rfl hp hd x y z
    · exact .readall r rfl hp x y z
  · rw [h]
    unfold refuseCommand
    split
    · exact .refuse r rfl hp (by assumption)
    · exact .ignore r rfl hp (by assumption)
  · rw [h]; exact .answer r a rfl hp

/-- Every step is a move. -/
theorem step_move {s t : State} (h : step s = .next t) : Move (nextTurn s) (enterTurn s) t := by
  unfold step takeTurn at h
  cases hk : nextTurn s <;> simp only [hk] at h
  · exact blockTurn_move h
  · exact present_move h
  all_goals cases h
  · exact .arrive _ rfl
  · exact .accept rfl
  · exact .fail rfl
  · exact .flushKeeps _ rfl
  · exact .reset _ _ rfl

/-- The invariant speaks of no field that entering a turn changes. -/
theorem State.Inv.enter {s : State} (h : s.Inv) : (enterTurn s).Inv :=
  ⟨h.1, h.2, h.3, h.4, h.5, h.6, h.7, h.8, h.9, h.10, h.11, h.12, h.13, h.14, h.15, h.16, h.17, h.18, h.19⟩

end Sys2Proof.Machine
end

