-- ==== Sys2Proof/Laws/PerInstr.lean ====
section
/-! SUPPORT. The family `EncodedLength`, one lemma per constructor: how many bytes the encoding of an instruction has
(spec/30_encoding.md R60, R75, spec/40_checksum.md R90, R92). -/

namespace Sys2Proof.Laws.EncodedLength

/-- The encoding has the length of its format (R60). -/
def Statement (i : Instr) : Prop :=
  (encode i).length =
    match i with
    | .cfgenc _ _ _ => 2
    | .read1 _ => 2
    | .readall => 2
    | .parseC _ _ _ _ => 16
    | .parseE _ _ _ _ _ => 22
    | .parseM _ _ _ _ _ _ _ => 34
    | .cfgframe _ _ _ _ => 9
    | .statdec _ => 2
    | .daq _ => 2
    | .sen _ => 2
    | .ovld _ => 2
    | .mult _ => 2
    | .sidx _ => 2
    | .noerr _ => 2
    | .csumIn _ body => 4 + body.length
    | .csumValid _ body => 4 + body.length
    | .csumOut _ _ _ => 7
    | .scale _ _ => 2

theorem cfgenc (speedSel filterSel : BitVec 3) (zero : Bool) : Statement (.cfgenc speedSel filterSel zero) := rfl

theorem read1 (d : Bool) : Statement (.read1 d) := rfl

theorem readall : Statement .readall := rfl

theorem parseC (count status : Half) (f : Triple) (checksum : Half) : Statement (.parseC count status f checksum) := rfl

theorem parseE (count status : Half) (f t : Triple) (checksum : Half) :
    Statement (.parseE count status f t checksum) := rfl

theorem parseM (count status : Half) (f0 f1 f2 f3 : Triple) (checksum : Half) :
    Statement (.parseM count status f0 f1 f2 f3 checksum) := rfl

theorem cfgframe (speed : Speed) (filter : Filter) (zero : Bool) (checksum : Half) :
    Statement (.cfgframe speed filter zero checksum) := rfl

theorem statdec (w : Half) : Statement (.statdec w) := rfl

theorem daq (c : BitVec 3) : Statement (.daq c) := rfl

theorem sen (c : BitVec 3) : Statement (.sen c) := rfl

theorem ovld (flags : BitVec 6) : Statement (.ovld flags) := rfl

theorem mult (b : Bool) : Statement (.mult b) := rfl

theorem sidx (c : BitVec 3) : Statement (.sidx c) := rfl

theorem noerr (w : Half) : Statement (.noerr w) := rfl

theorem csumIn (h : Byte) (body : List Byte) : Statement (.csumIn h body) := by
  simp only [Statement, encode, hdrOf, List.length_append, List.length_cons, List.length_nil]

theorem csumValid (h : Byte) (body : List Byte) : Statement (.csumValid h body) := by
  simp only [Statement, encode, hdrOf, List.length_append, List.length_cons, List.length_nil]

theorem csumOut (speedC filterC zeroF : Byte) : Statement (.csumOut speedC filterC zeroF) := rfl

theorem scale (a : Axis) (r : Half) : Statement (.scale a r) := rfl

end Sys2Proof.Laws.EncodedLength
end

