-- ==== Sys2Proof/Tests/Slice0.lean ====
section
/-! SUPPORT. Tests: what well-formedness refuses, one word of each row written out from the spec's tables, the spec's
vectors (spec/95_test_vectors.md, named in each docstring), and for every obligation with hypotheses a state and operands
that meet them. -/

namespace Sys2Proof.Tests

open Sys2Proof.Machine

/-! ### Helpers -/

/-- A test of the next state; false for a fault or a refusal. -/
def after (o : Host.Outcome State Fault Refusal) (p : State → Bool) : Bool :=
  match o with
  | .next t => p t
  | .fault _ => false
  | .refused _ => false

/-- Right after a reset, strapped for `v`, with these bytes waiting and these turns to come. -/
def fresh (v : Variant) (rxq : List Byte) (sched : List Turn) : State :=
  { State.resetWith (some v) with rxq := rxq, sched := sched }

/-- A READ1 in its search, `m` header bytes matched. -/
def searching (v : Variant) (m : Nat) (rxq : List Byte) : State :=
  { fresh v rxq [] with op := .read1, fsm := .synchronizing, midx := m }

/-- A READ1 in its drain. -/
def drainingIn (v : Variant) (ph : DrainPh) (rxq : List Byte) : State :=
  { searching v 0 rxq with drain := true, drainPh := ph }

/-- A read that has collected these body bytes. -/
def collected (v : Variant) (op : Op) (body rxq : List Byte) : State :=
  { fresh v rxq [] with
    op := op, fsm := .bodyPending, midx := 4, bidx := body.length, pbuf := body ++ List.replicate (30 - body.length) 0 }

/-- A CFGENC that has pushed `n` bytes of the frame of `CFGENC 3, 4, 0`. -/
def sendingFrom (n : Nat) (ready failed : Bool) : State :=
  { fresh .compact [] [] with
    op := .cfgEnc, cfgout := cfgFrame .hz100 .hz15 false, cfgoutWritten := true, txidx := n,
    txq := (cfgFrame .hz100 .hz15 false).take n, txReady := ready, tfail := failed }

/-- The body of the packet of V1. -/
def bodyV1 : List Byte := [0x2D, 0x6A, 0x00, 0x00, 0xFF, 0xF7, 0xFF, 0xFB, 0x00, 0x07, 0x05, 0x51]

/-- The body of the packet of V12. -/
def bodyV12 : List Byte :=
  [0x00, 0x01, 0x00, 0x00, 0x00, 0x64, 0xFF, 0x9C, 0x03, 0xE8, 0x00, 0x0A, 0xFF, 0xF6, 0x7F, 0xFF, 0x07, 0x31]

/-- The body of the first packet of V36. -/
def bodyV36 : List Byte :=
  [0x00, 0x01, 0x00, 0x00, 0x00, 0x01, 0x00, 0x01, 0x00, 0x01, 0x00, 0x01, 0x00, 0x01, 0x00, 0x01, 0x00, 0x01,
   0x00, 0x01, 0x00, 0x01, 0x00, 0x01, 0x00, 0x01, 0x00, 0x01, 0x00, 0xE2]

/-! ### Well-formedness refuses -/

/-- A frame whose checksum field is not the sum (R67): one off V20's `00 ED`. -/
theorem test_wellFormed_refuses_a_wrong_checksum :
    Instr.wellFormed (.cfgframe .hz100 .hz15 false 0x00ED) = true ∧
    Instr.wellFormed (.cfgframe .hz100 .hz15 false 0x00EE) = false := by decide

/-- A body of one byte (R90). -/
theorem test_wellFormed_refuses_short_bodies :
    Instr.wellFormed (.csumIn 0x0A [1]) = false ∧ Instr.wellFormed (.csumValid 0x0A []) = false ∧
    Instr.wellFormed (.csumIn 0x0A [1, 2]) = true ∧ Instr.wellFormed (.csumValid 0x0A [1, 2]) = true := by decide

/-! ### Decoding: words written out from spec/30_encoding.md -/

/-- R72: `0001 sss fff z uuuuu`, `0010 d …`, `0011 …`; bits no operand names are ignored; 0 and 4 to 15 are reserved. -/
theorem test_decode_commands :
    decode (.port .cmd) [0b00010110, 0b11000000] = .instr (.cfgenc 3 3 false) ∧
    decode (.port .cmd) [0b00011110, 0b00111111] = .instr (.cfgenc 7 0 true) ∧
    decode (.port .cmd) [0b00101000, 0b00000000] = .instr (.read1 true) ∧
    decode (.port .cmd) [0b00100111, 0b11111111] = .instr (.read1 false) ∧
    decode (.port .cmd) [0b00111111, 0b11111111] = .instr .readall ∧
    decode (.port .cmd) [0x0F, 0xFF] = .rejected .reservedOpcode ∧
    decode (.port .cmd) [0x40, 0x00] = .rejected .reservedOpcode ∧
    decode (.port .cmd) [0xF1, 0x23] = .rejected .reservedOpcode := by decide

/-- R61 with V1; a header of another variant is not recognised (R73); a short packet is refused (R129). -/
theorem test_decode_compact :
    decode (.packet .compact) ([0xAA, 0x07, 0x08, 0x0A] ++ bodyV1)
      = .instr (.parseC 11626 0 ⟨0xFFF7, 0xFFFB, 7⟩ 1361) ∧
    decode (.packet .extended) ([0xAA, 0x07, 0x08, 0x0A] ++ bodyV1) = .rejected .badHeader ∧
    decode (.packet .compact) ([0xAA, 0x07, 0x08, 0x0A] ++ bodyV1.dropLast) = .rejected .wrongLength := by decide

/-- R62 with V12. -/
theorem test_decode_extended :
    decode (.packet .extended) ([0xAA, 0x07, 0x08, 0x10] ++ bodyV12)
      = .instr (.parseE 1 0 ⟨100, 0xFF9C, 1000⟩ ⟨10, 0xFFF6, 0x7FFF⟩ 1841) := by decide

/-- R63: each of the twelve samples from its own two bytes. -/
theorem test_decode_multi :
    decode (.packet .multi)
      ([0xAA, 0x07, 0x08, 0x1C, 0x12, 0x34, 0x56, 0x78] ++ [0, 1, 0, 2, 0, 3, 0, 4, 0, 5, 0, 6, 0, 7, 0, 8] ++
        [0, 9, 0, 10, 0, 11, 1, 12, 0xAB, 0xCD])
      = .instr (.parseM 0x1234 0x5678 ⟨1, 2, 3⟩ ⟨4, 5, 6⟩ ⟨7, 8, 9⟩ ⟨10, 11, 0x010C⟩ 0xABCD) := by decide

/-- R66 to R70 with V20, and the bytes R68 to R70 give no meaning. -/
theorem test_decode_frame :
    decode (.port .cfgframe) [0xAA, 0x00, 0x32, 0x03, 0x21, 0x05, 0xFF, 0x02, 0x04]
      = .instr (.cfgframe .hz30 .hz5 true 0x0204) ∧
    decode (.port .cfgframe) [0xAA, 0x00, 0x32, 0x03, 0x02, 0x05, 0xFF, 0x02, 0x04] = .rejected .badSpeedCode ∧
    decode (.port .cfgframe) [0xAA, 0x00, 0x32, 0x03, 0x21, 0x07, 0xFF, 0x02, 0x04] = .rejected .badFilterCode ∧
    decode (.port .cfgframe) [0xAA, 0x00, 0x32, 0x03, 0x21, 0x05, 0x01, 0x02, 0x04] = .rejected .badZeroFlag := by decide

/-- R71: the fields of the status word `010 100 001110 0 100`. -/
theorem test_decode_status_fields :
    decode (.port .statdec) [0b01010000, 0b11100100] = .instr (.statdec 0x50E4) ∧
    decode (.port .daq) [0b01010000, 0b11100100] = .instr (.daq 0b010) ∧
    decode (.port .sen) [0b01010000, 0b11100100] = .instr (.sen 0b100) ∧
    decode (.port .ovld) [0b01010000, 0b11100100] = .instr (.ovld 0b001110) ∧
    decode (.port .mult) [0b01010000, 0b11100100] = .instr (.mult false) ∧
    decode (.port .sidx) [0b01010000, 0b11100100] = .instr (.sidx 0b100) ∧
    decode (.port .noerr) [0b01010000, 0b11100100] = .instr (.noerr 0x50E4) ∧
    decode (.port (.scale .z)) [0xFF, 0xF7] = .instr (.scale .z 0xFFF7) := by decide

/-- R90 to R92: the constant bytes the table gives the checksum functions. -/
theorem test_decode_checksum_operands :
    decode (.port .csumIn) [0xAA, 0x07, 0x08, 0x0A, 1, 2, 3] = .instr (.csumIn 0x0A [1, 2, 3]) ∧
    decode (.port .csumValid) [0xAA, 0x07, 0x08, 0x1C, 1, 2] = .instr (.csumValid 0x1C [1, 2]) ∧
    decode (.port .csumOut) [0xAA, 0x00, 0x32, 0x03, 0x0A, 0x04, 0x00] = .instr (.csumOut 0x0A 0x04 0x00) ∧
    decode (.port .csumOut) [0xAA, 0x00, 0x32, 0x04, 0x0A, 0x04, 0x00] = .rejected .badHeader := by decide

/-- R78: the table's numbering, first byte most significant. -/
theorem test_decode_table_words :
    decodeTableWord 16 0x1720 = some (.cfgenc 3 4 true) ∧ decodeTableWord 16 0x2800 = some (.read1 true) ∧
    decodeTableWord 16 0x3000 = some .readall ∧ decodeTableWord 16 0x50E4 = some (.statdec 0x50E4) ∧
    decodeTableWord 56 0xAA0032030A0400 = some (.csumOut 10 4 0) ∧
    decodeTableWord 72 0xAA0032030000000000 = some (.cfgframe .stop .off false 0) ∧
    decodeTableWord 128 0xAA07080A2D6A0000FFF7FFFB00070551 = some (.parseC 11626 0 ⟨0xFFF7, 0xFFFB, 7⟩ 1361) := by
  decide

/-! ### The instructions, one step each -/

/-- P1: the acceptance step of `CFGENC 3, 4, 1`. -/
theorem test_cfgenc_builds_the_frame :
    after (step (fresh .compact [] [.host ⟨.cmd, [0x17, 0x20]⟩])) (fun t =>
      t.cfgout == [0xAA, 0x00, 0x32, 0x03, 0x0A, 0x04, 0xFF, 0x01, 0xEC] && t.txidx == 0 && t.op == .cfgEnc
        && t.txq == [] && t.fsm == .idle) = true := by decide

/-- V21: `CFGENC 7, 7, 1` with a failed transport is still a ConfigurationError. -/
theorem test_cfgenc_validates_before_any_io :
    after (step { fresh .compact [] [.host ⟨.cmd, [0x1F, 0xE0]⟩] with tfail := true }) (fun t =>
      t.outcome == .configurationError && t.done && t.op == .none && t.linkdown == false && t.txq == []
        && t.cfgoutWritten == false) = true := by decide

/-- R151: `READ1 1` latches its operand. -/
theorem test_read1_starts_the_drain :
    after (step (fresh .compact [] [.host ⟨.cmd, [0x28, 0x00]⟩])) (fun t =>
      t.op == .read1 && t.drain && t.drainPh == .check && t.fsm == .synchronizing && t.midx == 0) = true := by decide

/-- V40: a strap that is not a variant refuses `READ1 0`. -/
theorem test_read1_refused_without_a_variant :
    after (step { State.resetWith none with sched := [.host ⟨.cmd, [0x20, 0x00]⟩] }) (fun t =>
      t.outcome == .refused && t.done && t.op == .none && t.fsm == .idle) = true := by decide

/-- R160: `READALL` keeps the resting `FSM`. -/
theorem test_readall_rests :
    after (step (fresh .compact bodyV1 [.host ⟨.cmd, [0x30, 0x00]⟩])) (fun t =>
      t.op == .readAll && t.fsm == .idle && t.rxq == bodyV1) = true := by decide

/-- V34: 15 waiting bytes end the READALL, 16 start a read. -/
theorem test_readall_threshold :
    after (step { fresh .compact (List.replicate 15 0) [] with op := .readAll }) (fun t =>
      t.op == .none && t.outcome == .ok && t.done && t.fsm == .idle) = true ∧
    after (step { fresh .compact (List.replicate 16 0) [] with op := .readAll }) (fun t =>
      t.op == .readAll && t.fsm == .synchronizing) = true := by decide

/-- V1: the decode step on the source's packet. -/
theorem test_parseC_on_V1 :
    after (step (collected .compact .read1 bodyV1 [])) (fun t =>
      t.rd == { count := 11626, status := 0, raw := [0xFFF7, 0xFFFB, 7],
                force := [⟨0xBFD5CDEE3BC29FE6, 0xBFC6383B03F0B67F, 0x400283F4FF1C7B69⟩], torque := none,
                checksum := 1361, checksumValid := true }
        && t.rdv && t.out.length == 1 && t.fsm == .decoded && t.op == .none) = true := by decide

/-- V12: the decode step on the extended example; torques stay raw. -/
theorem test_parseE_on_V12 :
    after (step (collected .extended .readAll bodyV12 [])) (fun t =>
      t.rd.torque == some ⟨10, 0xFFF6, 0x7FFF⟩ && t.rd.raw == [100, 0xFF9C, 1000, 10, 0xFFF6, 0x7FFF]
        && t.rd.checksumValid && t.op == .readAll) = true := by decide

/-- V36: count 1, twelve samples of 1, checksum 226, valid; every lane the same. -/
theorem test_parseM_on_V36 :
    after (step (collected .multi .read1 bodyV36 [])) (fun t =>
      t.rd.count == 1 && t.rd.raw == List.replicate 12 1 && t.rd.checksum == 226 && t.rd.checksumValid
        && t.rd.force == List.replicate 4 ⟨0x3FA361B751908E22, 0x3FA1C6959CC091FF, 0x3FD52917FEFBFAC1⟩) = true := by
  decide

/-- R91, R125: the last byte changed to `50` gives 0, and the Reading is emitted all the same. -/
theorem test_parseC_emits_a_bad_packet :
    after (step (collected .compact .read1 (bodyV1.dropLast ++ [0x50]) [])) (fun t =>
      t.rd.checksumValid == false && t.rd.checksum == 0x0550 && t.out.length == 1 && t.outcome == .ok) = true := by decide

/-- V20: the largest frame. -/
theorem test_cfgframe_largest :
    after (exec (.cfgframe .hz10 .hz1_5 true 0) State.reset) (fun t =>
      t.answers == [.cfgframe [0xAA, 0x00, 0x32, 0x03, 0x64, 0x06, 0xFF, 0x02, 0x48]]) = true := by decide

/-- R112: the source's status word, and the word of ones. -/
theorem test_statdec_examples :
    after (exec (.statdec 0x50E4) State.reset) (fun t =>
      t.answers == [.statdec ⟨.commError, .temperatureError, [.fz, .tx, .ty], .single, .four⟩]) = true ∧
    after (exec (.statdec 0xFFFF) State.reset) (fun t =>
      t.answers == [.statdec ⟨.reserved, .reserved, [.fx, .fy, .fz, .tx, .ty, .tz], .multiple, .reserved⟩]) = true := by
  decide

/-- R101: code 2. -/
theorem test_daq_commError :
    after (exec (.daq 2) State.reset) (fun t => t.answers == [.daq .commError]) = true := by decide

/-- R102: 3 is Reserved, "not NotDetected and Failure". -/
theorem test_sen_three_is_reserved :
    after (exec (.sen 3) State.reset) (fun t => t.answers == [.sen .reserved]) = true := by decide

/-- R103: the source's `2^9 + 2^5`. -/
theorem test_ovld_example :
    after (present ⟨.ovld, [0x02, 0x20]⟩ State.reset) (fun t => t.answers == [.ovld [.fx, .ty]]) = true := by decide

/-- R104. -/
theorem test_mult_set :
    after (exec (.mult true) State.reset) (fun t => t.answers == [.mult .multiple]) = true := by decide

/-- R105: 0 is None, 5 is Reserved. -/
theorem test_sidx_edges :
    after (exec (.sidx 0) State.reset) (fun t => t.answers == [.sidx .none]) = true ∧
    after (exec (.sidx 5) State.reset) (fun t => t.answers == [.sidx .reserved]) = true := by decide

/-- R108. -/
theorem test_noerr_is_exact :
    after (exec (.noerr 0) State.reset) (fun t => t.answers == [.noerr true]) = true ∧
    after (exec (.noerr 0x0008) State.reset) (fun t => t.answers == [.noerr false]) = true := by decide

/-- R90: the source's packet sums to 1361. -/
theorem test_csumIn_on_V1 :
    after (exec (.csumIn 0x0A bodyV1) State.reset) (fun t => t.answers == [.csumIn 1361]) = true := by decide

/-- R91. -/
theorem test_csumValid_on_V1 :
    after (exec (.csumValid 0x0A bodyV1) State.reset) (fun t => t.answers == [.csumValid true]) = true ∧
    after (exec (.csumValid 0x0A (bodyV1.dropLast ++ [0x50])) State.reset) (fun t => t.answers == [.csumValid false])
      = true := by decide

/-- R92: 237. -/
theorem test_csumOut_example :
    after (exec (.csumOut 10 4 0) State.reset) (fun t => t.answers == [.csumOut 0x00ED]) = true := by decide

/-- R122: the extremes of the table. -/
theorem test_scale_extremes :
    after (exec (.scale .x 0x8000) State.reset) (fun t => t.answers == [.scale 0xC09361B751908E22]) = true ∧
    after (exec (.scale .z 0x7FFF) State.reset) (fun t => t.answers == [.scale 0x40C528EDACCBFCC9]) = true := by decide

/-! ### The step rules and the host's view -/

/-- V30: the second `AA` fails against `08` and restarts the match. -/
theorem test_search_restarts :
    after (step (searching .compact 2 [0xAA, 0x07])) (fun t => t.midx == 1 && t.rxq == [0x07] && t.cur == 1) = true ∧
    after (step (searching .compact 3 [0x0A])) (fun t => t.fsm == .bodyPending && t.bidx == 0 && t.midx == 4) = true := by
  decide

/-- V33: 16 bytes are not drained, 17 are. -/
theorem test_drain_threshold :
    after (step (drainingIn .compact .check (List.replicate 16 0))) (fun t => t.drainPh == .no) = true ∧
    after (step (drainingIn .compact .check (List.replicate 17 0))) (fun t => t.drainPh == .flush) = true := by decide

/-- V40: a command while a READ1 holds is ignored. -/
theorem test_busy_command_is_ignored :
    after (step { searching .compact 0 [] with sched := [.host ⟨.cmd, [0x12, 0x00]⟩] }) (fun t =>
      t.op == .read1 && t.outcome == .ok && t.done == false && t.txq == []) = true := by decide

/-- V41: the failure is tested before emptiness. -/
theorem test_transport_error_before_emptiness :
    after (step { searching .compact 0 bodyV1 with tfail := true }) (fun t =>
      t.outcome == .transportError && t.linkdown && t.fsm == .idle && t.op == .none && t.rxq == bodyV1 && t.cur == 0)
        = true := by decide

/-- R106 and D29: what the host reads of a status word, and of registers without a value. -/
theorem test_host_reads :
    (daqCode .commError, sensorCode .temperatureError, overloadCode [.fz, .tx, .ty], multiplicityCode .single,
      sensorIndexCode .four) = (2, 3, 0b001110, 0, 4) ∧
    (hostRead .rd State.reset).fault = true ∧ (hostRead .cfgout State.reset).fault = true ∧
    hostRead .variant State.reset = ⟨.code 0, false⟩ ∧ hostRead .variant (State.resetWith none) = ⟨.code 3, false⟩ := by
  decide

/-- R18: right after reset `RD` has the fields of the strap's shape, all with a value. -/
theorem test_reset_gives_rd_its_shape :
    [State.reset, State.resetWith (some .extended), State.resetWith (some .multi)].map
        (fun s => (s.rd.raw.length, s.rd.force.length, s.rd.torque.isSome))
      = [(3, 1, false), (6, 1, true), (12, 4, false)] := by decide

/-- R204: reset in the middle of a body keeps the queues and forgets the rest. -/
theorem test_reset_keeps_the_queues :
    after (step { collected .compact .read1 [1, 2] [3, 4] with sched := [.reset (some .multi) true], tfail := true })
      (fun t => t.variant == some .multi && t.fsm == .idle && t.op == .none && t.bidx == 0 && t.rxq == [3, 4]
        && t.tfail == false) = true := by decide

/-! ### Witnesses: states and operands that meet the hypotheses of the obligations -/

/-- `DecodeOfEncodeIsTheInstruction`: the three rows with a condition. -/
theorem witness_DecodeOfEncode :
    Instr.wellFormed (.cfgframe .hz10 .hz1_5 true 584) = true ∧ Instr.wellFormed (.csumIn 0xFF [0, 0]) = true ∧
    Instr.wellFormed (.csumValid 0 [0, 0]) = true ∧ Instr.wellFormed (.cfgenc 7 7 true) = true := by decide

/-- `PacketsAreRecognisedByOneHeader`: a packet of each variant. -/
theorem witness_PacketsAreRecognised :
    (∃ i, decode (.packet .compact) (hdr .compact ++ bodyV1) = .instr i) ∧
    (∃ i, decode (.packet .extended) (hdr .extended ++ bodyV12) = .instr i) ∧
    (∃ i, decode (.packet .multi) (hdr .multi ++ bodyV36) = .instr i) := ⟨⟨_, rfl⟩, ⟨_, rfl⟩, ⟨_, rfl⟩⟩

/-- `FrameBytesAreTheirEncoding`, with a checksum field that is not the sum. -/
theorem witness_FrameBytes :
    decode (.port .cfgframe) [0xAA, 0x00, 0x32, 0x03, 0x00, 0x00, 0x00, 0xFF, 0xFF]
      = .instr (.cfgframe .stop .off false 0xFFFF) := by decide

/-- `WordsOfTheSpecDecode`: the greatest command word of each opcode that has an instruction, which has every ignored bit
set, and the words next to them. -/
theorem witness_WordsOfTheSpec :
    (0x1FFF : Half).toNat / 4096 = 1 ∧ (0x2FFF : Half).toNat / 4096 = 2 ∧ (0x3FFF : Half).toNat / 4096 = 3 ∧
    (0x0FFF : Half).toNat / 4096 = 0 ∧ 4 ≤ (0x4000 : Half).toNat / 4096 := by decide

/-- `StepRunsThePresentedInstruction`. -/
theorem witness_StepRunsPresented :
    (fresh .compact [] [.host ⟨.cmd, [0x28, 0x00]⟩, .accept]).sched = .host ⟨.cmd, [0x28, 0x00]⟩ :: [.accept] ∧
    decode (.port .cmd) [0x28, 0x00] = .instr (.read1 true) := by decide

/-- `StepRunsTheBufferedPacket`: `nextTurn`, the variant, the operation, `FSM`, `BIDX` and the decoded packet. -/
theorem witness_StepRunsBuffered :
    nextTurn (collected .compact .readAll bodyV1 []) = .block ∧
    (collected .compact .readAll bodyV1 []).variant = some .compact ∧
    (collected .compact .readAll bodyV1 []).op = .readAll ∧
    (collected .compact .readAll bodyV1 []).fsm = .bodyPending ∧
    (collected .compact .readAll bodyV1 []).bidx = blen .compact ∧
    decode (.packet .compact) (hdr .compact ++ (collected .compact .readAll bodyV1 []).pbuf.take (blen .compact))
      = .instr (.parseC 11626 0 ⟨0xFFF7, 0xFFFB, 7⟩ 1361) := by decide

/-- `PlacedWordRunsNext`: a request, and a packet. -/
theorem witness_PlacedWordRunsNext :
    decodeTableWord 16 0x0000 = some (.statdec 0) ∧
    decodeTableWord 176 0xAA070810000000000000000000000000000000000001
      = some (.parseE 0 0 ⟨0, 0, 0⟩ ⟨0, 0, 0⟩ 1) := by decide

/-- `CsumInIsTheSumOfTheCoveredBytes` at the shortest body, and `ShortBodiesAreRefused` at both lengths. -/
theorem witness_csum_bodies : 2 ≤ [(0 : Byte), 0].length ∧ [(7 : Byte)].length < 2 ∧ ([] : List Byte).length < 2 := by
  decide

/-- `ReorderedBytesPassTheChecksum`: the two bytes of a sample swapped, and a total of exactly 65536. -/
theorem witness_Reordered :
    [(1 : Byte), 2].Perm [2, 1] ∧
    (65536 : ℤ) ∣ ((List.replicate 257 (255 : Byte) ++ [1]).map BitVec.toNat).sum - (([] : List Byte).map BitVec.toNat).sum :=
  ⟨.swap 2 1 [], 1, by rw [List.map_append, List.map_replicate, List.sum_append, List.sum_replicate]; decide⟩

/-- `PacketSumsAreBounded`: a body of each length. -/
theorem witness_PacketSums :
    bodyV1.length = blen .compact ∧ bodyV12.length = blen .extended ∧ bodyV36.length = blen .multi := by decide

/-- `StatdecIsItsFiveFields` and `NoErrorsMeansTheWordIsZero`: a state whose `RD.status` is the word. -/
theorem witness_status_register :
    ({ State.reset with rd := { State.reset.rd with status := 0x50E4 } } : State).rd.status = 0x50E4 ∧
    State.reset.rd.status = 0 := by decide

/-- `ScaleGivesNormalNumbers` and `ScaleIsOdd`: zero, the least sample, and one that is neither. -/
theorem witness_scale : ((0 : Half) = 0) ∧ ((0x8000 : Half) ≠ 0) ∧ ((1 : Half) ≠ 0 ∧ (1 : Half) ≠ 0x8000) := by decide

/-- The half-way clause of `ScaleIsTheNearestProduct` is not empty: three times the odd significand of `FY_SCALE` is one
bit too long, so `SCALE_y(3)` is exactly half way between two values. -/
theorem witness_scale_half_way :
    2 * |f64Value (scaleSample .y 3) - ((3 : Half).toInt : ℚ) * f64Value (scaleConst .y)| = f64Ulp (scaleSample .y 3) := by
  have h1 : scaleSample .y 3 = 0x3FBAA9E06B20DAFE := by decide
  have h2 : scaleConst .y = 0x3FA1C6959CC091FF := by decide
  have h3 : ((3 : Half).toInt) = 3 := by decide
  have a1 : f64Sign 0x3FBAA9E06B20DAFE = false ∧ f64Num 0x3FBAA9E06B20DAFE = 0x1AA9E06B20DAFE ∧
      f64Den 0x3FBAA9E06B20DAFE = 2 ^ 56 ∧ f64Exp 0x3FBAA9E06B20DAFE = -56 := by decide
  have a2 : f64Sign 0x3FA1C6959CC091FF = false ∧ f64Num 0x3FA1C6959CC091FF = 0x11C6959CC091FF ∧
      f64Den 0x3FA1C6959CC091FF = 2 ^ 57 := by decide
  rw [h1, h2, h3]
  simp only [f64Value, f64Ulp, a1, a2]
  norm_num

/-- The invariant of a READ1 at its decode step. -/
theorem inv_collected : (collected .compact .read1 bodyV1 []).Inv ∧ (collected .multi .readAll bodyV36 [1]).Inv := by
  constructor <;> constructor <;> simp [collected, fresh, State.resetWith, blen, total, hlen, bodyV1, bodyV36]

/-- `DecodeStepWritesParseOfTheBuffer`, in a READ1 and in a READALL (the invariant: `inv_collected`). -/
theorem witness_DecodeStep :
    (collected .compact .read1 bodyV1 []).Inv ∧ nextTurn (collected .compact .read1 bodyV1 []) = .block ∧
    (collected .compact .read1 bodyV1 []).variant = some .compact ∧
    (collected .compact .read1 bodyV1 []).fsm = .bodyPending ∧
    (collected .compact .read1 bodyV1 []).bidx = blen .compact ∧ (collected .compact .read1 bodyV1 []).op = .read1 ∧
    (collected .multi .readAll bodyV36 [1]).Inv ∧ nextTurn (collected .multi .readAll bodyV36 [1]) = .block ∧
    (collected .multi .readAll bodyV36 [1]).variant = some .multi ∧
    (collected .multi .readAll bodyV36 [1]).fsm = .bodyPending ∧
    (collected .multi .readAll bodyV36 [1]).bidx = blen .multi ∧ (collected .multi .readAll bodyV36 [1]).op = .readAll :=
  ⟨inv_collected.1, by decide, by decide, by decide, by decide, by decide,
    inv_collected.2, by decide, by decide, by decide, by decide, by decide⟩

/-- `ParseCompactWritesTheReading`, `ParseExtendedWritesTheReading`, `ParseMultiWritesTheReading`: the operation;
`ParseInsideReadallGoesOn`: the slot and the operation. -/
theorem witness_Parse :
    (collected .compact .read1 bodyV1 []).op = .read1 ∧ (collected .compact .readAll bodyV1 []).op = .readAll ∧
    Instr.slot (.parseC 0 0 ⟨0, 0, 0⟩ 0) = .packet .compact ∧
    Instr.slot (.parseE 0 0 ⟨0, 0, 0⟩ ⟨0, 0, 0⟩ 0) = .packet .extended ∧
    Instr.slot (.parseM 0 0 ⟨0, 0, 0⟩ ⟨0, 0, 0⟩ ⟨0, 0, 0⟩ ⟨0, 0, 0⟩ 0) = .packet .multi := by decide

/-- `CfgencIsAccepted`: the last valid selectors. -/
theorem witness_CfgencIsAccepted :
    (fresh .compact [] []).op = .none ∧ (fresh .compact [] []).linkdown = false ∧
    (fresh .compact [] []).variant ≠ none ∧
    [Speed.stop, .hz1000, .hz333, .hz100, .hz30, .hz10][(5 : BitVec 3).toNat]? = some .hz10 ∧
    [Filter.off, .hz500, .hz150, .hz50, .hz15, .hz5, .hz1_5][(6 : BitVec 3).toNat]? = some .hz1_5 := by decide

/-- `InvalidSelectorIsAConfigurationError`: the least invalid selector of each kind, the other being valid. -/
theorem witness_InvalidSelector :
    (fresh .multi [] []).op = .none ∧ (fresh .multi [] []).linkdown = false ∧ (fresh .multi [] []).variant ≠ none ∧
    5 < (6 : BitVec 3).toNat ∧ 6 < (7 : BitVec 3).toNat := by decide

/-- `SendStepsPushTheFrameInOrder`: the last byte, a transport that is not ready, one that has failed, and the end. -/
theorem witness_SendSteps :
    nextTurn (sendingFrom 8 true false) = .block ∧ (sendingFrom 8 true false).op = .cfgEnc ∧
    (sendingFrom 8 true false).cfgout[(sendingFrom 8 true false).txidx]? = some 0xED ∧
    (sendingFrom 8 true false).txidx < 9 ∧ (sendingFrom 8 true false).tfail = false ∧
    (sendingFrom 8 true false).txReady = true ∧
    (sendingFrom 0 false false).txidx < 9 ∧ (sendingFrom 0 false false).txReady = false ∧
    (sendingFrom 4 false true).txidx < 9 ∧ (sendingFrom 4 false true).tfail = true ∧
    (sendingFrom 4 false true).fsm = .idle ∧ (sendingFrom 9 false false).txidx = 9 := by decide

/-- `CfgencSendsTheWholeFrame`: the schedule of P1. -/
theorem witness_CfgencSends :
    (fresh .compact [] (.host ⟨.cmd, encode (.cfgenc 3 4 true)⟩
      :: ((List.replicate 9 [Turn.accept, Turn.block]).flatten ++ Turn.block :: []))).op = .none ∧
    (fresh .compact [] []).linkdown = false ∧ (fresh .compact [] []).variant ≠ none ∧
    (fresh .compact [] []).tfail = false ∧ speedOfSel 3 = some .hz100 ∧ filterOfSel 4 = some .hz15 := by decide

/-- `CommandsNotAdmittedAreRefusedOrIgnored`: busy, link down, no variant, and the opcodes 0, 4 and 15. -/
theorem witness_CommandsNotAdmitted :
    { searching .compact 0 [] with sched := [.host ⟨.cmd, halfBytes 0x1200⟩] }.op ≠ .none ∧
    ({ fresh .compact [] [.host ⟨.cmd, halfBytes 0x2000⟩] with linkdown := true } : State).linkdown = true ∧
    ({ State.resetWith none with sched := [.host ⟨.cmd, halfBytes 0x2000⟩] } : State).variant = none ∧
    (0x0FFF : Half).toNat / 4096 = 0 ∧ (0x4000 : Half).toNat / 4096 = 4 ∧ (0xF123 : Half).toNat / 4096 = 15 := by decide

/-- `TransportErrorEndsTheOperation`: a search, a body one byte short, a first send step. -/
theorem witness_TransportError :
    (let s := { searching .compact 0 bodyV1 with tfail := true }
     nextTurn s = .block ∧ s.variant = some .compact ∧ s.tfail = true ∧ s.op = .read1 ∧ s.fsm = .synchronizing ∧
       s.drainPh = .no) ∧
    (let s := { collected .compact .readAll bodyV1.dropLast [] with tfail := true }
     nextTurn s = .block ∧ s.variant = some .compact ∧ s.tfail = true ∧ s.op = .readAll ∧ s.fsm = .bodyPending ∧
       s.bidx < blen .compact) ∧
    (let s := sendingFrom 0 true true
     nextTurn s = .block ∧ s.variant = some .compact ∧ s.tfail = true ∧ s.op = .cfgEnc ∧ s.fsm = .idle ∧ s.txidx < 9) := by
  decide

/-- `WaitingKeepsTheState`: in the search and in the body. -/
theorem witness_Waiting :
    (let s := searching .extended 3 []
     nextTurn s = .block ∧ s.variant = some .extended ∧ s.tfail = false ∧ s.rxq = [] ∧ s.op = .read1 ∧
       s.fsm = .synchronizing ∧ s.drainPh = .no) ∧
    (let s := collected .multi .readAll [1] []
     nextTurn s = .block ∧ s.variant = some .multi ∧ s.tfail = false ∧ s.rxq = [] ∧ s.op = .readAll ∧
       s.fsm = .bodyPending ∧ s.bidx < blen .multi) := by decide

/-- `QuiescentBlockDoesNothing` and `Read1IsAccepted`. -/
theorem witness_Quiescent :
    nextTurn State.reset = .block ∧ State.reset.op = .none ∧ State.reset.linkdown = false ∧ State.reset.variant ≠ none := by
  decide

/-- `ReadallIsAcceptedAndTested`: at the threshold and one below it. -/
theorem witness_Readall :
    (fresh .compact [] []).variant = some .compact ∧ (fresh .compact [] []).op = .none ∧
    (fresh .compact [] []).linkdown = false ∧
    (let s := { fresh .compact (List.replicate 16 0) [] with op := .readAll }
     nextTurn s = .block ∧ s.op = .readAll ∧ s.fsm = .idle ∧ total .compact ≤ s.rxq.length) ∧
    (let s := { fresh .compact (List.replicate 15 0) [] with op := .readAll, fsm := .decoded }
     nextTurn s = .block ∧ s.op = .readAll ∧ s.fsm = .decoded ∧ s.rxq.length < total .compact) := by decide

/-- `DrainChecksThenFlushesOnce` and `FlushDropsAPrefix`: `TOTAL` and `TOTAL + 1` bytes at the check, the flush of an
exact, of an inexact and of a failed transport; and a step that takes `DRAINPH` to each of its values. -/
theorem witness_Drain :
    (let s := drainingIn .extended .check (List.replicate 22 0)
     nextTurn s = .block ∧ s.variant = some .extended ∧ s.op = .read1 ∧ s.fsm = .synchronizing ∧ s.drainPh = .check ∧
       s.rxq.length ≤ total .extended) ∧
    total .extended < (drainingIn .extended .check (List.replicate 23 0)).rxq.length ∧
    (let s := drainingIn .extended .flush [1, 2]
     s.drainPh = .flush ∧ s.tfail = false ∧ s.flushKeep = 0) ∧
    (let s := { drainingIn .extended .flush [1, 2] with flushKeep := 1 }
     nextTurn s = .block ∧ s.drainPh = .flush ∧ s.flushKeep = 1) ∧
    (let s := { drainingIn .extended .flush [1, 2] with tfail := true }
     s.drainPh = .flush ∧ s.tfail = true) ∧
    after (step (drainingIn .extended .check (List.replicate 23 0))) (fun t => t.drainPh == .flush) = true ∧
    after (step (drainingIn .extended .flush [1, 2])) (fun t => t.drainPh == .no) = true ∧
    (let s := fresh .extended [1] [.host ⟨.cmd, [0x28, 0x00]⟩]
     s.drainPh = .no ∧ after (step s) (fun t => t.drainPh == .check && t.op == .read1) = true) := by decide

/-- `SearchStepMatchesOneByte`: a byte for each of its four branches. -/
theorem witness_SearchStep :
    (let s := searching .compact 2 [0x08]
     nextTurn s = .block ∧ s.variant = some .compact ∧ s.op = .read1 ∧ s.fsm = .synchronizing ∧ s.drainPh = .no ∧
       s.tfail = false ∧ s.rxq = 0x08 :: [] ∧ s.midx < 4 ∧ (hdr .compact)[s.midx]? = some 0x08 ∧ s.midx < 3) ∧
    (hdr .compact)[(searching .compact 3 [0x0A]).midx]? = some 0x0A ∧
    (hdr .compact)[(searching .compact 3 [0xAA]).midx]? ≠ some 0xAA ∧
    (hdr .compact)[(searching .compact 3 [0x10]).midx]? ≠ some 0x10 ∧ (0x10 : Byte) ≠ 0xAA := by decide

/-- `BodyStepStoresOneByte`: the last byte of a body. -/
theorem witness_BodyStep :
    (collected .compact .read1 bodyV1.dropLast [0x51]).Inv ∧
    (let s := collected .compact .read1 bodyV1.dropLast [0x51]
     nextTurn s = .block ∧ s.variant = some .compact ∧ s.fsm = .bodyPending ∧ s.op ≠ .none ∧ s.bidx < blen .compact ∧
       s.tfail = false ∧ s.rxq = 0x51 :: []) :=
  ⟨by constructor <;> simp [collected, fresh, State.resetWith, blen, total, hlen, bodyV1], by decide⟩

/-- `SearchEndsAtTheFirstHeader`: a stream with the header after garbage, and one without it. -/
theorem witness_SearchEnds :
    (let s := searching .compact 0 ([0x00, 0xAA, 0x07] ++ hdr .compact ++ [9])
     s.variant = some .compact ∧ s.op = .read1 ∧ s.fsm = .synchronizing ∧ s.drainPh = .no ∧ s.midx = 0 ∧
       s.tfail = false ∧ s.sched = [] ∧ s.done = false ∧ s.rdValid = false ∧
       readUntil (hdr .compact) s.rxq = some [9]) ∧
    readUntil (hdr .compact) (searching .compact 0 [0xAA, 0x07, 0x08, 0x10, 0xAA]).rxq = none := by decide

/-- `Read1ReadsTheFirstPacket`: V32's first read. -/
theorem witness_Read1 :
    ∃ r, (let s := fresh .compact ([0x00, 0xAA] ++ hdr .compact ++ (bodyV1 ++ [5])) [.host ⟨.cmd, [0x20, 0x00]⟩]
          s.variant = some .compact ∧ s.op = .none ∧ s.linkdown = false ∧ s.tfail = false ∧ s.pbuf.length = 30 ∧
            s.sched = [.host ⟨.cmd, [0x20, 0x00]⟩] ∧ readUntil (hdr .compact) s.rxq = some (bodyV1 ++ [5])) ∧
      parse .compact bodyV1 = some r :=
  ⟨_, by decide, rfl⟩

/-- `ReadallReadsEveryAlignedPacket`: two packets and 15 bytes, and none at all. -/
theorem witness_ReadallReads :
    (let s := fresh .compact ([bodyV1, bodyV1].flatMap (fun b => hdr .compact ++ b) ++ List.replicate 15 0xAA)
        [.host ⟨.cmd, [0x30, 0x00]⟩]
     s.variant = some .compact ∧ s.op = .none ∧ s.linkdown = false ∧ s.tfail = false ∧ s.pbuf.length = 30 ∧
       s.fsm = .idle ∧ (∀ b ∈ [bodyV1, bodyV1], b.length = blen .compact) ∧
       (List.replicate 15 (0xAA : Byte)).length < total .compact) ∧
    (fresh .compact [] []).rxq = ([] : List (List Byte)).flatMap (fun b => hdr .compact ++ b) ++ [] := by decide

/-- `ResetSetsTheBlockAndKeepsTheStreams`: a reset in the middle of a body, with a failed transport that the platform has
not reopened, and with one that it has; and a reset to another variant. -/
theorem witness_Reset :
    nextTurn { collected .compact .read1 [1] [2] with sched := [.reset none false] } = .reset none false ∧
    (let s := { collected .compact .read1 [1] [2] with sched := [.reset none false], tfail := true, txReady := true }
     after (step s) (fun t => t.tfail && t.txReady) = true) ∧
    (let s := { collected .compact .read1 [1] [2] with sched := [.reset none true], tfail := true }
     nextTurn s = .reset none true ∧ after (step s) (fun t => !t.tfail) = true) ∧
    nextTurn (fresh .compact [] [.reset (some .extended) false]) = .reset (some .extended) false := by decide

/-- `HostReadsOfUnwrittenRegistersFault` has no hypothesis; `RDV` and the mark of `CFGOUT` take both values. -/
theorem witness_HostReads :
    State.reset.rdv = false ∧ State.reset.cfgoutWritten = false ∧ (sendingFrom 0 true false).cfgoutWritten = true ∧
    after (step (collected .compact .read1 bodyV1 [])) (fun t => t.rdv) = true := by decide

/-- `EveryStepKeepsTheInvariant`: the first step after reset, and a decode step. -/
theorem witness_EveryStepKeepsTheInvariant :
    (State.reset.Inv ∧ ∃ t, step State.reset = .next t) ∧
    ((collected .compact .read1 bodyV1 []).Inv ∧ ∃ t, step (collected .compact .read1 bodyV1 []) = .next t) :=
  ⟨⟨by constructor <;> simp [State.reset, State.resetWith, Config.strap], ⟨_, rfl⟩⟩, ⟨inv_collected.1, ⟨_, rfl⟩⟩⟩

/-- `StepsAlwaysAnswer`: a reserved command word, and a request that decodes on another port. -/
theorem witness_StepsAlwaysAnswer :
    (fresh .compact [] [.host ⟨.cmd, [0xF1, 0x23]⟩]).Inv ∧ (⟨.cmd, [0xF1, 0x23]⟩ : Request).bytes.length = 2 ∧
    (fresh .compact [] [.host ⟨.csumIn, [0xAA, 0x07, 0x08, 0x0A, 0, 0]⟩]).Inv ∧
    decode (.port .csumIn) [0xAA, 0x07, 0x08, 0x0A, 0, 0] = .instr (.csumIn 0x0A [0, 0]) :=
  ⟨by constructor <;> simp [fresh, State.resetWith], by decide, by constructor <;> simp [fresh, State.resetWith], by decide⟩

/-- `VariantIsFixedBetweenResets` and the other statements about every step but a reset: a block turn. -/
theorem witness_steps_between_resets :
    (∃ t, step State.reset = .next t) ∧ ∀ strap reopened, nextTurn State.reset ≠ .reset strap reopened :=
  ⟨⟨_, rfl⟩, fun _ _ h => by cases h⟩

/-- `LinkdownIsStickyAndTransportBitsMoveAsListed`: a step that sets `LINKDOWN`, and a reset that clears it; the turns of
the transport; a reset that clears `TFAIL`, a push that uses the readiness up, and a turn that changes `flushKeep`. -/
theorem witness_Linkdown :
    (let s := { searching .compact 0 [] with tfail := true }
     s.linkdown = false ∧ after (step s) (fun t => t.linkdown) = true) ∧
    (let s := { fresh .compact [] [.reset (some .compact) true] with linkdown := true, tfail := true }
     s.linkdown = true ∧ after (step s) (fun t => !t.linkdown && !t.tfail) = true) ∧
    nextTurn (fresh .compact [] [.arrive 1]) = .arrive 1 ∧
    (let s := fresh .compact [] [.accept]
     nextTurn s = .accept ∧ s.txReady = false ∧ after (step s) (fun t => t.txReady) = true) ∧
    (let s := fresh .compact [] [.fail]
     nextTurn s = .fail ∧ s.tfail = false ∧ after (step s) (fun t => t.tfail) = true) ∧
    (let s := sendingFrom 8 true false
     s.txReady = true ∧ after (step s) (fun t => !t.txReady) = true) ∧
    after (step (fresh .compact [] [.flushKeeps 3])) (fun t => t.flushKeep == 3) = true := by decide

/-- `FsmMovesOnlyAsListed`: each of its four transitions is taken. -/
theorem witness_FsmMoves :
    after (step (fresh .compact [] [.host ⟨.cmd, [0x20, 0x00]⟩])) (fun t => t.fsm == .synchronizing) = true ∧
    after (step (searching .compact 3 [0x0A])) (fun t => t.fsm == .bodyPending) = true ∧
    after (step (collected .compact .read1 bodyV1 [])) (fun t => t.fsm == .decoded) = true ∧
    after (step { searching .compact 0 [] with tfail := true }) (fun t => t.fsm == .idle) = true := by decide

/-- `OnlyTheDecodeStepWritesTheReading`, `OnlySendStepsAppendToTheTransmitQueue`,
`OnlyAValidCfgencWritesTheFrameRegister`, `CursorCountsTheBytesTaken`: a step of each kind they name. -/
theorem witness_writers :
    after (step (collected .compact .read1 bodyV1 [])) (fun t => t.rdValid && t.out == [t.rd]) = true ∧
    after (step (sendingFrom 8 true false)) (fun t => t.txq == (sendingFrom 8 true false).txq ++ [0xED]) = true ∧
    after (step (fresh .compact [] [.host ⟨.cmd, [0x17, 0x00]⟩])) (fun t => t.cfgoutWritten) = true ∧
    after (step (fresh .compact [1] [.arrive 2])) (fun t => t.rxq == [1, 2] && t.cur == 0) = true ∧
    after (step (drainingIn .compact .flush [1, 2, 3])) (fun t => t.rxq == [] && t.cur == 3) = true := by decide

/-- `PureUnitsShareNothingWithTheBlock`: a status word while a READ1 holds. -/
theorem witness_PureUnits :
    (let s := { searching .compact 0 [] with sched := [.host ⟨.statdec, [0x50, 0xE4]⟩] }
     s.sched = .host ⟨.statdec, [0x50, 0xE4]⟩ :: [] ∧ Port.statdec ≠ .cmd ∧
       after (step s) (fun t => t.op == .read1) = true) := by decide

/-- `ReadingDependsOnTheBufferOnly`: two different machines with the same body. -/
theorem witness_ReadingDepends :
    (let s := collected .compact .read1 bodyV1 []
     let s' := { collected .compact .readAll bodyV1 [1, 2] with cur := 7 }
     nextTurn s = .block ∧ nextTurn s' = .block ∧ s.fsm = .bodyPending ∧ s'.fsm = .bodyPending ∧ s.op = .read1 ∧
       s'.op = .readAll ∧ s.variant = some .compact ∧ s'.variant = some .compact ∧ s.bidx = blen .compact ∧
       s'.bidx = blen .compact ∧ s.pbuf.take (blen .compact) = s'.pbuf.take (blen .compact) ∧
       after (step s) (fun _ => true) = true ∧ after (step s') (fun _ => true) = true) := by decide

/-- The decoding, placing and first step of a command and of a packet after reset (R72, R158). -/
theorem test_placed_words_run_after_reset :
    after (step (State.reset.withFetchWord 16 0x2800)) (fun t => t.op == .read1 && t.drain) = true ∧
    after (step (State.reset.withFetchWord 16 0x1720)) (fun t => t.op == .cfgEnc && t.cfgoutWritten) = true ∧
    after (step (State.reset.withFetchWord 272 (0xAA07081C000100000001 <<< 192))) (fun t =>
      t.rd.count == 1 && t.rd.raw.take 2 == [1, 0] && t.rdv) = true := by decide

end Sys2Proof.Tests
end

section
/-! PROOFS. The family of spec/10_state.md: the invariant of the machine and what a step can do to each register. A move
(Sys2Proof/Laws/Moves.lean) is all that a turn can do, so each part is one lemma about moves, and the statements about
`step` follow by `step_move`. -/

namespace Sys2Proof.Machine

/-! ### The invariant, move by move

A move rewrites a few registers; the parts of the invariant that speak of none of them carry over as they are, so each
lemma proves only the parts that its move touches. -/

section Invariant

variable {u : State}

/-- The drain is off outside a READ1 (R14). -/
theorem State.Inv.drainPh_no (h : u.Inv) (hop : u.op ≠ .read1) : u.drainPh = .no :=
  Decidable.byContradiction fun hne => hop (h.draining hne).1

/-- An operation that reads is not one that rests. -/
theorem not_resting_of_read (hop : u.op = .read1 ∨ u.op = .readAll) : ¬ (u.op = .none ∨ u.op = .cfgEnc) := by
  rcases hop with e | e <;> simp [e]

/-- One more byte moves `MIDX` on by at most one, or back to 0 or 1 (R155). -/
theorem matchNext_le (hd : List Byte) (m : Nat) (b : Byte) : matchNext hd m b ≤ m + 1 := by
  unfold matchNext
  split
  · exact le_rfl
  · split <;> omega

/-- One more byte of the frame pushed extends what was pushed of it (R144). -/
theorem take_succ_suffix_push {frame q : List Byte} {n : Nat} (hn : n < frame.length) (h : frame.take n <:+ q) :
    frame.take (n + 1) <:+ q ++ [frame.getD n 0] := by
  obtain ⟨before, rfl⟩ := h
  refine ⟨before, ?_⟩
  rw [List.take_succ_eq_append_getElem hn, List.getD_eq_getElem _ _ hn, List.append_assoc]

/-- A drain step chooses the next phase within a searching READ1 (R153). -/
theorem State.Inv.drainCheck (h : u.Inv) (hop : u.op = .read1) (hfsm : u.fsm = .synchronizing)
    (hph : u.drainPh = .check) (ph : DrainPh) : State.Inv { u with drainPh := ph } :=
  { h with draining := fun _ => ⟨hop, hfsm, (h.draining (by simp [hph])).2.2⟩ }

/-- The drain ends, and `RXQ` and `CUR` are free (R154). -/
theorem State.Inv.drainEnd (h : u.Inv) (q : List Byte) (n : Nat) :
    State.Inv { u with drainPh := .no, rxq := q, cur := n } :=
  { h with draining := fun hne => absurd rfl hne }

/-- A transport failure ends every operation with `FSM` at rest (R185). -/
theorem State.Inv.transportError (h : u.Inv) {f : Fsm} (hf : f = .idle ∨ f = .decoded) :
    State.Inv { u with
      outcome := .transportError, linkdown := true, op := .none, done := true, fsm := f, drainPh := .no } :=
  { h with
    resting := fun _ => hf
    reading := nofun
    strapped := fun hne => absurd rfl hne
    linkUp := fun hne => absurd rfl hne
    draining := fun hne => absurd rfl hne
    noDrain := nofun
    matching := fun (e : f = .synchronizing) => by simp [e] at hf
    collecting := fun _ _ (e : f = .bodyPending) => by simp [e] at hf
    sending := nofun
    sent := nofun }

/-- An operation ends where `FSM` is at rest (R145, R160). -/
theorem State.Inv.endOp (h : u.Inv) (hf : u.fsm = .idle ∨ u.fsm = .decoded) (hop : u.op ≠ .read1) (e : Ending) :
    State.Inv { u with op := .none, outcome := e, done := true } :=
  { h with
    resting := fun _ => hf
    reading := nofun
    strapped := fun hne => absurd rfl hne
    linkUp := fun hne => absurd rfl hne
    draining := fun hne => absurd (h.drainPh_no hop) hne
    noDrain := nofun
    sending := nofun
    sent := nofun }

/-- The header is complete and the body starts (R155). -/
theorem State.Inv.searchHit (h : u.Inv) (hop : u.op = .read1 ∨ u.op = .readAll) (hph : u.drainPh = .no)
    (q : List Byte) (n : Nat) :
    State.Inv { u with rxq := q, cur := n, midx := 4, fsm := .bodyPending, bidx := 0 } :=
  { h with
    resting := fun e => absurd e (not_resting_of_read hop)
    reading := fun _ => .inr rfl
    draining := fun hne => absurd hph hne
    matching := nofun
    midxRange := le_rfl
    collecting := fun _ _ _ => Nat.zero_le _
    bidxRange := Nat.zero_le _ }

/-- The search goes on with fewer than four bytes matched (R155). -/
theorem State.Inv.searchOn (h : u.Inv) (q : List Byte) (n : Nat) {m : Nat} (hm : m < 4) :
    State.Inv { u with rxq := q, cur := n, midx := m } :=
  { h with matching := fun _ => hm, midxRange := hm.le }

/-- A body byte is stored below `BLEN` (R157). -/
theorem State.Inv.body (h : u.Inv) {v : Variant} (hv : u.variant = some v) (hb : u.bidx < blen v) (b : Byte)
    (q : List Byte) (n : Nat) :
    State.Inv { u with rxq := q, cur := n, pbuf := u.pbuf.set u.bidx b, bidx := u.bidx + 1 } :=
  { h with
    collecting := fun w hw _ => by
      obtain rfl : v = w := Option.some.inj (hv.symm.trans hw)
      exact hb
    bidxRange := Nat.le_trans hb (blen_le v)
    pbufSize := by simp [h.pbufSize] }

/-- A Reading that is `PARSE` of the buffer is emitted, and the read goes on or ends at rest (R158). -/
theorem State.Inv.decode (h : u.Inv) {v : Variant} (hv : u.variant = some v) (hfsm : u.fsm = .bodyPending) {r : Reading}
    {body : List Byte} (hr : parse v body = some r) {o : Op} (ho : o = .none ∨ o = .readAll ∧ u.op = .readAll)
    (e : Ending) (d : Bool) :
    State.Inv { u with
      rd := r, rdv := true, rdValid := true, out := u.out ++ [r], fsm := .decoded, op := o, outcome := e, done := d } :=
  { h with
    resting := fun _ => .inr rfl
    reading := fun (e : o = .read1) => by simp [e] at ho
    strapped := fun _ => by simp [hv]
    linkUp := fun hne => h.linkUp (by simp [(ho.resolve_left hne).2])
    draining := fun hne => by simpa [hfsm] using (h.draining hne).2.1
    noDrain := fun (e : o = .readAll) => h.noDrain (ho.resolve_left (by simp [e])).2
    matching := nofun
    collecting := nofun
    emitted := fun r' hr' => by
      rcases List.mem_append.1 hr' with hold | hnew
      · exact h.emitted r' hold
      · obtain rfl := List.mem_singleton.1 hnew
        exact ⟨v, body, hv, hr⟩
    latest := List.getLast?_concat
    shaped := fun w hw => by
      obtain rfl : v = w := Option.some.inj (hv.symm.trans hw)
      exact parse_hasShape hr
    sending := fun (e : o = .cfgEnc) => by simp [e] at ho
    sent := fun (e : o = .cfgEnc) => by simp [e] at ho }

/-- READALL starts the search of one more packet (R160). -/
theorem State.Inv.loopOn (h : u.Inv) (hop : u.op = .readAll) :
    State.Inv { u with fsm := .synchronizing, midx := 0 } :=
  { h with
    resting := fun e => absurd e (not_resting_of_read (.inr hop))
    reading := fun _ => .inl rfl
    draining := fun hne => absurd (h.drainPh_no (by simp [hop])) hne
    matching := fun _ => Nat.succ_pos 3
    midxRange := Nat.zero_le _
    collecting := nofun }

/-- One byte of the frame is pushed (R144). -/
theorem State.Inv.send (h : u.Inv) (hop : u.op = .cfgEnc) (hx : u.txidx < 9) :
    State.Inv { u with txq := u.txq ++ [u.cfgout.getD u.txidx 0], txReady := false, txidx := u.txidx + 1 } :=
  { h with
    txidxRange := hx
    sent := fun _ => take_succ_suffix_push (by rw [h.cfgoutSize]; exact hx) (h.sent hop) }

/-- A valid CFGENC is accepted with its frame built (R143). -/
theorem State.Inv.acceptCfgenc (h : u.Inv) (hop : u.op = .none) (hl : u.linkdown = false) (hv : u.variant ≠ none)
    (speed : Speed) (filter : Filter) (zero : Bool) :
    State.Inv { u with cfgout := cfgFrame speed filter zero, cfgoutWritten := true, txidx := 0, op := .cfgEnc } :=
  { h with
    resting := fun _ => h.resting (.inl hop)
    reading := nofun
    strapped := fun _ => hv
    linkUp := fun _ => hl
    draining := fun hne => absurd (h.drainPh_no (by simp [hop])) hne
    noDrain := nofun
    txidxRange := Nat.zero_le _
    cfgoutSize := rfl
    frame := fun _ => ⟨speed, filter, zero, rfl⟩
    sending := fun _ => rfl
    sent := fun _ => List.nil_suffix }

/-- READ1 is accepted and searches from the first header byte (R151). -/
theorem State.Inv.acceptRead1 (h : u.Inv) (hl : u.linkdown = false) (hv : u.variant ≠ none) (d : Bool) :
    State.Inv { u with
      op := .read1, drain := d, drainPh := if d then .check else .no, fsm := .synchronizing, midx := 0 } :=
  { h with
    resting := fun e => by simp at e
    reading := fun _ => .inl rfl
    strapped := fun _ => hv
    linkUp := fun _ => hl
    draining := fun hne => ⟨rfl, rfl, by simpa using hne⟩
    noDrain := nofun
    matching := fun _ => Nat.succ_pos 3
    midxRange := Nat.zero_le _
    collecting := nofun
    sending := nofun
    sent := nofun }

/-- READALL is accepted and leaves `FSM` at rest (R160). -/
theorem State.Inv.acceptReadall (h : u.Inv) (hl : u.linkdown = false) (hv : u.variant ≠ none) :
    State.Inv { u with op := .readAll, drain := false, drainPh := .no } :=
  { h with
    resting := fun e => by simp at e
    reading := nofun
    strapped := fun _ => hv
    linkUp := fun _ => hl
    draining := fun hne => absurd rfl hne
    noDrain := fun _ => rfl
    sending := nofun
    sent := nofun }

/-- The invariant holds right after a reset, whatever the strap (R30, R200). -/
theorem State.resetWith_inv (strap : Option Variant) : (State.resetWith strap).Inv where
  resting _ := .inl rfl
  reading := nofun
  strapped hne := absurd rfl hne
  linkUp hne := absurd rfl hne
  draining hne := absurd rfl hne
  noDrain := nofun
  matching := nofun
  midxRange := Nat.zero_le _
  collecting := nofun
  bidxRange := Nat.zero_le _
  txidxRange := Nat.zero_le _
  pbufSize := rfl
  cfgoutSize := rfl
  emitted := nofun
  latest := rfl
  shaped v hv := by
    obtain rfl : strap = some v := hv
    exact blank_hasShape v
  frame := nofun
  sending := nofun
  sent := nofun

/-- A reset keeps the transport's part, of which the invariant says nothing while no operation runs (R201). -/
theorem resetBlock_inv (strap : Option Variant) (reopened : Bool) (s : State) : (resetBlock strap reopened s).Inv :=
  { State.resetWith_inv strap with sent := nofun }

/-- `FSM` rests after a transport failure wherever it rested before (R185). -/
theorem fsmAfterFailure_rests (f : Fsm) : fsmAfterFailure f = .idle ∨ fsmAfterFailure f = .decoded := by
  cases f <;> simp [fsmAfterFailure]

/-- Every move keeps the invariant. -/
theorem Move.keeps_inv {k : Turn} {t : State} (hm : Move k u t) (h : u.Inv) : t.Inv := by
  cases hm with
  | wait => exact h
  | drainCheck v _ _ hop hfsm hph => exact h.drainCheck hop hfsm hph _
  | drainFailed => exact h.drainEnd u.rxq u.cur
  | drainFlush => exact h.drainEnd _ _
  | popFailed => exact h.transportError (.inl rfl)
  | searchHit v b q _ _ hop _ hph => exact h.searchHit hop hph q _
  | searchOn v b q _ _ _ hfsm _ _ _ hm =>
    have hle := matchNext_le (hdr v) u.midx b
    have hlt := h.matching hfsm
    exact h.searchOn q _ (by omega)
  | body v b q _ hv _ _ hb => exact h.body hv hb b q _
  | decodeRead1 v r _ hv _ hfsm _ hr => exact h.decode hv hfsm hr (.inl rfl) .ok true
  | decodeReadall v r _ hv hop hfsm _ hr => exact h.decode hv hfsm hr (.inr ⟨hop, hop⟩) u.outcome u.done
  | loopOn v _ _ hop => exact h.loopOn hop
  | loopEnd v _ _ hop hf => exact h.endOp hf (by simp [hop]) .ok
  | sendFailed => exact h.transportError (fsmAfterFailure_rests _)
  | send _ hop hx => exact h.send hop hx
  | complete _ hop => exact h.endOp (h.resting (.inr hop)) (by simp [hop]) .ok
  | cfgenc r speed filter zero _ _ hop hl hv => exact h.acceptCfgenc hop hl hv speed filter zero
  | read1 r d _ _ _ _ hl hv => exact h.acceptRead1 hl hv d
  | readall r _ _ _ hl hv => exact h.acceptReadall hl hv
  | ignore => exact h
  | reset strap reopened => exact resetBlock_inv strap reopened u
  | configurationError | refuse | answer | arrive | accept | fail | flushKeeps => exact { h with }

end Invariant

/-- Settles O49: a step is a move in the entered state, and every move keeps the invariant. -/
theorem everyStepKeepsTheInvariant : Obligations.EveryStepKeepsTheInvariant :=
  fun _ _ h hs => (step_move hs).keeps_inv h.enter

/-- Settles O50: `State.reset` is the state right after a reset that samples the compact strap. -/
theorem resetMeetsTheInvariant : Obligations.ResetMeetsTheInvariant :=
  ⟨State.resetWith_inv _, State.resetWith_inv⟩

/-! ### What a move can do to each register

One lemma per register or group of registers: unchanged, or changed by the moves that are listed, with their guards. -/

section Registers

variable {k : Turn} {u t : State}

/-- Only a reset writes `VARIANT` (R11). -/
theorem Move.variant_eq_or (hm : Move k u t) : t.variant = u.variant ∨ ∃ strap reopened, k = .reset strap reopened := by
  cases hm with
  | reset strap reopened hk => exact .inr ⟨strap, reopened, hk⟩
  | _ => exact .inl rfl

/-- `LINKDOWN` is cleared by a reset and set by a `TransportError` of the block (R24, R185). -/
theorem Move.linkdown_eq_or (hm : Move k u t) :
    t.linkdown = u.linkdown ∨ (t.linkdown = false ∧ ∃ strap reopened, k = .reset strap reopened) ∨
    (t.linkdown = true ∧ k = .block ∧ u.tfail = true ∧ t.outcome = .transportError ∧ t.op = .none) := by
  cases hm with
  | popFailed _ hk _ _ _ hf => exact .inr (.inr ⟨rfl, hk, hf, rfl, rfl⟩)
  | sendFailed hk _ _ hf => exact .inr (.inr ⟨rfl, hk, hf, rfl, rfl⟩)
  | reset strap reopened hk => exact .inr (.inl ⟨rfl, strap, reopened, hk⟩)
  | _ => exact .inl rfl

/-- `TFAIL` is set by the transport's failure and cleared by a reset with the transport reopened (R28, R58, R204). -/
theorem Move.tfail_eq_or (hm : Move k u t) :
    t.tfail = u.tfail ∨ (t.tfail = true ∧ k = .fail) ∨ (t.tfail = false ∧ ∃ strap, k = .reset strap true) := by
  cases hm with
  | fail hk => exact .inr (.inl ⟨rfl, hk⟩)
  | reset strap reopened hk =>
    cases reopened with
    | false => exact .inl (Bool.and_true _)
    | true => exact .inr (.inr ⟨Bool.and_false _, strap, hk⟩)
  | _ => exact .inl rfl

/-- `TXQ` and `tx_ready`: a push uses up the readiness and appends one byte, `accept` makes the transport ready, and no
other turn touches either (R47, R58). -/
theorem Move.transmit_cases (hm : Move k u t) :
    (t.txq = u.txq ∧ t.txReady = u.txReady) ∨ (t.txq = u.txq ∧ t.txReady = true ∧ k = .accept) ∨
    (k = .block ∧ u.op = .cfgEnc ∧ u.tfail = false ∧ u.txReady = true ∧ t.txReady = false ∧
      ∃ b, t.txq = u.txq ++ [b]) := by
  cases hm with
  | send hk hop _ hf hr => exact .inr (.inr ⟨hk, hop, hf, hr, rfl, _, rfl⟩)
  | accept hk => exact .inr (.inl ⟨rfl, rfl, hk⟩)
  | _ => exact .inl ⟨rfl, rfl⟩

/-- What the discard leaves is changed by its own turn alone (R46). -/
theorem Move.flushKeep_eq_or (hm : Move k u t) : t.flushKeep = u.flushKeep ∨ k = .flushKeeps t.flushKeep := by
  cases hm with
  | flushKeeps n hk => exact .inr hk
  | _ => exact .inl rfl

/-- Between resets `RD`, `RDV`, `OUT` and the strobe `rd_valid` are written by the decode step alone (R18, R22, R158). -/
theorem Move.reading_cases (hm : Move k u t) (hk : ∀ strap reopened, k ≠ .reset strap reopened) :
    (t.rd = u.rd ∧ t.rdv = u.rdv ∧ t.out = u.out ∧ t.rdValid = u.rdValid) ∨
    (k = .block ∧ u.fsm = .bodyPending ∧ (∃ v, u.variant = some v ∧ u.bidx = blen v) ∧
      t.out = u.out ++ [t.rd] ∧ t.rdv = true ∧ t.rdValid = true) := by
  cases hm with
  | decodeRead1 v _ hb hv _ hfsm hx => exact .inr ⟨hb, hfsm, ⟨v, hv, hx⟩, rfl, rfl, rfl⟩
  | decodeReadall v _ hb hv _ hfsm hx => exact .inr ⟨hb, hfsm, ⟨v, hv, hx⟩, rfl, rfl, rfl⟩
  | reset strap reopened e => exact absurd e (hk strap reopened)
  | _ => exact .inl ⟨rfl, rfl, rfl, rfl⟩

/-- Between resets `CFGOUT` is written by the acceptance of a valid CFGENC alone (R20, R143). -/
theorem Move.cfgout_cases (hm : Move k u t) (hk : ∀ strap reopened, k ≠ .reset strap reopened) :
    (t.cfgout = u.cfgout ∧ t.cfgoutWritten = u.cfgoutWritten) ∨
    (∃ r, k = .host r ∧ r.port = .cmd ∧ u.op = .none ∧ u.linkdown = false ∧ t.op = .cfgEnc ∧ t.txidx = 0 ∧
      t.txq = u.txq ∧ t.cfgoutWritten = true ∧ ∃ speed filter zero, t.cfgout = cfgFrame speed filter zero) := by
  cases hm with
  | cfgenc r speed filter zero e hp hop hl =>
    exact .inr ⟨r, e, hp, hop, hl, rfl, rfl, rfl, rfl, speed, filter, zero, rfl⟩
  | reset strap reopened e => exact absurd e (hk strap reopened)
  | _ => exact .inl ⟨rfl, rfl⟩

/-- Between resets `RXQ` grows by an arrival at its tail and shrinks at its head, by a byte of the search or the body or
by a flush, and `CUR` counts what it loses (R25, R26, R165). -/
theorem Move.receive_cases (hm : Move k u t) (hk : ∀ strap reopened, k ≠ .reset strap reopened) :
    (t.rxq = u.rxq ∧ t.cur = u.cur) ∨ (∃ b, k = .arrive b ∧ t.rxq = u.rxq ++ [b] ∧ t.cur = u.cur) ∨
    (∃ b, u.rxq = b :: t.rxq ∧ t.cur = u.cur + 1 ∧ (u.fsm = .synchronizing ∨ u.fsm = .bodyPending)) ∨
    (u.drainPh = .flush ∧ ∃ dropped, u.rxq = dropped ++ t.rxq ∧ t.cur = u.cur + dropped.length) := by
  cases hm with
  | arrive b e => exact .inr (.inl ⟨b, e, rfl, rfl⟩)
  | searchHit _ b _ _ _ _ hfsm _ _ hq => exact .inr (.inr (.inl ⟨b, hq, rfl, .inl hfsm⟩))
  | searchOn _ b _ _ _ _ hfsm _ _ hq => exact .inr (.inr (.inl ⟨b, hq, rfl, .inl hfsm⟩))
  | body _ b _ _ _ _ hfsm _ _ hq => exact .inr (.inr (.inl ⟨b, hq, rfl, .inr hfsm⟩))
  | drainFlush _ dropped _ _ _ _ _ hph _ hq => exact .inr (.inr (.inr ⟨hph, dropped, hq, rfl⟩))
  | reset strap reopened e => exact absurd e (hk strap reopened)
  | _ => exact .inl ⟨rfl, rfl⟩

end Registers

/-! ### The statements about `step`

A move of a step starts in the entered state, which has the registers and streams of the state before. -/

/-- Settles O52: only a reset is a move that writes `VARIANT`. -/
theorem variantIsFixedBetweenResets : Obligations.VariantIsFixedBetweenResets := by
  intro s t h hk
  obtain e | ⟨strap, reopened, e⟩ := (step_move h).variant_eq_or
  · exact e
  · exact absurd e (hk strap reopened)

/-- Settles O53: register by register, from what a move can do to each; the transport's own turns are its equations. -/
theorem linkdownIsStickyAndTransportBitsMoveAsListed : Obligations.LinkdownIsStickyAndTransportBitsMoveAsListed := by
  refine ⟨fun s t h => ?_, fun s b hk => ?_, fun s hk => ?_, fun s hk => ?_⟩
  · have hm := step_move h
    have hlink := hm.linkdown_eq_or
    have hfail := hm.tfail_eq_or
    have hsend := hm.transmit_cases
    have hkeep := hm.flushKeep_eq_or
    simp only [enterTurn_linkdown, enterTurn_tfail, enterTurn_txq, enterTurn_txReady, enterTurn_op,
      enterTurn_flushKeep] at hlink hfail hsend hkeep
    refine ⟨fun hs ht => ?_, fun hs ht => ?_, fun hs ht => ?_, fun hs ht => ?_, fun hs ht => ?_, fun hs ht => ?_,
      hkeep.resolve_left⟩
    · simpa [hs, ht] using hlink
    · simpa [hs, ht] using hlink
    · simpa [hs, ht] using hfail
    · simpa [hs, ht] using hfail
    · obtain ⟨-, haccept⟩ : t.txq = s.txq ∧ nextTurn s = .accept := by simpa [hs, ht] using hsend
      exact haccept
    · simpa [hs, ht] using hsend
  all_goals rw [step, hk]; rfl

/-- Settles O55: the decode step is the only move that writes the Reading. -/
theorem onlyTheDecodeStepWritesTheReading : Obligations.OnlyTheDecodeStepWritesTheReading :=
  fun _ _ h hk => (step_move h).reading_cases hk

/-- Settles O56: the acceptance of a valid CFGENC is the only move that writes the frame register. -/
theorem onlyAValidCfgencWritesTheFrameRegister : Obligations.OnlyAValidCfgencWritesTheFrameRegister :=
  fun _ _ h hk => (step_move h).cfgout_cases hk

/-- Settles O57: the push is the only move that writes `TXQ`. -/
theorem onlySendStepsAppendToTheTransmitQueue : Obligations.OnlySendStepsAppendToTheTransmitQueue := by
  intro s t h
  obtain ⟨e, -⟩ | ⟨e, -⟩ | ⟨hk, hop, hf, hr, -, hb⟩ := (step_move h).transmit_cases
  · exact .inl e
  · exact .inl e
  · exact .inr ⟨hk, hop, hf, hr, hb⟩

/-- Settles O58: the moves that pop, flush or append are all that write `RXQ` and `CUR`. -/
theorem cursorCountsTheBytesTaken : Obligations.CursorCountsTheBytesTaken :=
  fun _ _ h hk => (step_move h).receive_cases hk

/-! ### The codes a host reads -/

/-- The code table of `OUTCOME` (R24). -/
theorem outcomeCode_iff (e : Ending) :
    (outcomeCode e = 0 ↔ e = .ok) ∧ (outcomeCode e = 1 ↔ e = .configurationError) ∧
    (outcomeCode e = 2 ↔ e = .transportError) ∧ (outcomeCode e = 3 ↔ e = .refused) := by
  cases e <;> decide

/-- The code table of `FSM` (R12). -/
theorem fsmCode_iff (f : Fsm) :
    (fsmCode f = 0 ↔ f = .idle) ∧ (fsmCode f = 1 ↔ f = .synchronizing) ∧ (fsmCode f = 2 ↔ f = .bodyPending) ∧
    (fsmCode f = 3 ↔ f = .decoded) := by
  cases f <;> decide

/-- The code table of `OP` (R13). -/
theorem opCode_iff (o : Op) :
    (opCode o = 0 ↔ o = .none) ∧ (opCode o = 1 ↔ o = .cfgEnc) ∧ (opCode o = 2 ↔ o = .read1) ∧
    (opCode o = 3 ↔ o = .readAll) := by
  cases o <;> decide

/-- The code table of `VARIANT`, 3 being no variant (R11). -/
theorem variantCode_iff (v : Option Variant) :
    (variantCode v = 0 ↔ v = some .compact) ∧ (variantCode v = 1 ↔ v = some .extended) ∧
    (variantCode v = 2 ↔ v = some .multi) ∧ (variantCode v = 3 ↔ v = none) := by
  rcases v with _ | v
  · decide
  · cases v <;> decide

/-- Settles O48: the reads are the model's equations, and each code is its table's. -/
theorem hostReadsOfUnwrittenRegistersFault : Obligations.HostReadsOfUnwrittenRegistersFault :=
  fun s => ⟨rfl, rfl, rfl, rfl, rfl, ⟨_, rfl, outcomeCode_iff s.outcome⟩, ⟨_, rfl, fsmCode_iff s.fsm⟩,
    ⟨_, rfl, opCode_iff s.op⟩, ⟨_, rfl, variantCode_iff s.variant⟩⟩

/-! ### Placing a table word -/

/-- What a table word decodes to stands in the slot that its width gives (R78). -/
theorem decodeTableWord_eq_some {nbits w : Nat} {i : Instr} (h : decodeTableWord nbits w = some i) :
    ∃ slot bs, tableSlot nbits w = some (slot, bs) ∧ decode slot bs = .instr i := by
  unfold decodeTableWord at h
  split at h
  · cases h
  · rename_i slot bs hslot
    split at h <;> cases h
    exact ⟨slot, bs, hslot, by assumption⟩

/-- The bytes of a packet that decodes are the header and a body of `BLEN` bytes (R65, R75). -/
theorem packet_eq_hdr_append {v : Variant} {bs : List Byte} {i : Instr} (h : decode (.packet v) bs = .instr i) :
    ∃ body, bs = hdr v ++ body ∧ body.length = blen v := by
  obtain ⟨he, -⟩ := encode_of_decode_packet h
  obtain ⟨rfl, _, _, _, _, rfl⟩ | ⟨rfl, _, _, _, _, _, rfl⟩ | ⟨rfl, _, _, _, _, _, _, _, rfl⟩ := decode_packet_cases h
  all_goals exact ⟨_, he.symm, rfl⟩

/-- A placed request runs next, in the old state with its strobes down. -/
theorem step_of_placed_request {s : State} {nbits w : Nat} {p : Port} {bs : List Byte} {i : Instr}
    (hslot : tableSlot nbits w = some (.port p, bs)) (hd : decode (.port p) bs = .instr i) :
    step (s.withFetchWord nbits w) = exec i { s with done := false, rdValid := false } := by
  simp only [State.withFetchWord, placeWord, hslot]
  rw [step_host (r := ⟨p, bs⟩) rfl]
  simp only [present, hd]
  rfl

/-- The framer at its decode step, with a packet's whole body placed, has this packet in its buffer (R158). -/
theorem bufferedPacket_placePacket {v : Variant} {body : List Byte} (hl : body.length = blen v) (s : State) :
    bufferedPacket v (enterTurn (placePacket v (hdr v ++ body) s)) = hdr v ++ body := by
  have hdrop : (hdr v ++ body).drop hlen = body := List.drop_left' (hdr_length v)
  simp [bufferedPacket, placePacket, hdrop, ← hl]

/-- The framer that a packet is placed in takes its decode step (R150, R158). -/
theorem enabledRule_placePacket (v : Variant) (bs : List Byte) (s : State) :
    enabledRule (enterTurn (placePacket v bs s)) = .decode v := by
  cases hop : s.op <;> simp [enabledRule, enabledReadAt, enabledRead, placePacket, readingOp, hop]

/-- A placed packet runs next, in the framer at its decode step. -/
theorem step_of_placed_packet {s : State} {nbits w : Nat} {v : Variant} {body : List Byte} {i : Instr}
    (hslot : tableSlot nbits w = some (.packet v, hdr v ++ body)) (hd : decode (.packet v) (hdr v ++ body) = .instr i)
    (hl : body.length = blen v) :
    step (s.withFetchWord nbits w) = exec i (enterTurn (placePacket v (hdr v ++ body) s)) := by
  simp only [State.withFetchWord, placeWord, hslot, afterPrefix_append, Option.isSome_some, if_true]
  rw [step_block rfl]
  simp only [blockTurn, enabledRule_placePacket, runPacket, bufferedPacket_placePacket hl, hd]

/-- Settles O7: a port's word is placed as a request, a packet's in the framer's buffer. -/
theorem placedWordRunsNext : Obligations.PlacedWordRunsNext := by
  intro s nbits w i h
  obtain ⟨slot, bs, hslot, hd⟩ := decodeTableWord_eq_some h
  cases slot with
  | port p =>
    have hi := decode_port_slot hd
    refine ⟨_, step_of_placed_request hslot hd, rfl, rfl, rfl, rfl, rfl, fun _ _ => rfl, fun v hv => ?_⟩
    cases hi.symm.trans hv
  | packet v =>
    obtain ⟨he, hi⟩ := encode_of_decode_packet hd
    obtain ⟨body, rfl, hl⟩ := packet_eq_hdr_append hd
    refine ⟨_, step_of_placed_packet hslot hd hl, rfl, rfl, rfl, rfl, rfl, fun p hp => ?_, fun v' hv => ?_⟩
    · cases hi.symm.trans hp
    · cases hi.symm.trans hv
      exact ⟨rfl, rfl, rfl, he.trans (bufferedPacket_placePacket hl s).symm⟩

end Sys2Proof.Machine
end

section
/-! PROOFS. The family of spec/20_memory.md: a presented request runs, a copy of a pure unit shares nothing with the
block, a wait on the receive queue keeps the state, and a discard drops bytes from the front of that queue. -/

namespace Sys2Proof.Machine

/-! ### Requests -/

/-- The head of the schedule is the next turn. -/
theorem nextTurn_of_sched {s : State} {k : Turn} {q : List Turn} (h : s.sched = k :: q) : nextTurn s = k := by
  simp [nextTurn, h]

/-- A turn at the head of the schedule leaves the rest of it. -/
theorem enterTurn_of_sched {s : State} {k : Turn} {q : List Turn} (h : s.sched = k :: q) :
    enterTurn s = { s with sched := q, done := false, rdValid := false } := by
  simp [enterTurn_eq, h]

/-- A request whose bytes are an instruction of its port runs it (R53, R72). -/
theorem present_of_decode {r : Request} {i : Instr} (h : decode (.port r.port) r.bytes = .instr i) (s : State) :
    present r s = exec i s := by
  simp only [present, h]

/-- Settles O5: a request's turn presents it, and presenting runs what its bytes decode to. -/
theorem stepRunsThePresentedInstruction : Obligations.StepRunsThePresentedInstruction := by
  intro s r q i hs hd
  rw [step_host (nextTurn_of_sched hs), present_of_decode hd, enterTurn_of_sched hs]

/-- Settles O59: of the ways a request can end, only the one that adds an answer is not on the command port. -/
theorem pureUnitsShareNothingWithTheBlock : Obligations.PureUnitsShareNothingWithTheBlock := by
  intro s t r q hs hp h
  rw [step_host (nextTurn_of_sched hs), enterTurn_of_sched hs] at h
  obtain ⟨hcmd, -⟩ | ⟨hcmd, -⟩ | ⟨-, a, ht⟩ := present_next h
  · exact absurd hcmd hp
  · exact absurd hcmd hp
  · exact ⟨a, ht⟩

/-! ### The rule that is enabled during a read -/

/-- Entering a turn does not change which rule is enabled. -/
@[simp] theorem enabledRule_enterTurn (s : State) : enabledRule (enterTurn s) = enabledRule s := rfl

section Read

variable {s : State} {v : Variant} (hv : s.variant = some v) (hop : s.op = .read1 ∨ s.op = .readAll)
include hv hop

/-- During a read the enabled rule is one of a read's (R150). -/
theorem enabledRule_of_read : enabledRule s = enabledRead v s := by
  obtain hop | hop := hop <;> simp [enabledRule, enabledReadAt, hop, hv]

/-- The flush rule is enabled (R154). -/
theorem enabledRule_drainFlush (hfsm : s.fsm = .synchronizing) (hph : s.drainPh = .flush) :
    enabledRule s = .drainFlush := by
  simp [enabledRule_of_read hv hop, enabledRead, hfsm, hph]

/-- The search rule is enabled (R155). -/
theorem enabledRule_search (hfsm : s.fsm = .synchronizing) (hph : s.drainPh = .no) : enabledRule s = .search v := by
  simp [enabledRule_of_read hv hop, enabledRead, hfsm, hph]

/-- The body rule is enabled (R157). -/
theorem enabledRule_body (hfsm : s.fsm = .bodyPending) (hb : s.bidx < blen v) : enabledRule s = .body := by
  simp [enabledRule_of_read hv hop, enabledRead, hfsm, hb]

end Read

/-! ### Waiting for a byte -/

/-- A search step on an empty queue changes nothing (R43, R155). -/
theorem searchStep_hold {s : State} (v : Variant) (hf : s.tfail = false) (hq : s.rxq = []) : searchStep v s = s := by
  simp [searchStep, rxPop_hold hf hq]

/-- A body step on an empty queue changes nothing (R43, R157). -/
theorem bodyStep_hold {s : State} (hf : s.tfail = false) (hq : s.rxq = []) : bodyStep s = s := by
  simp [bodyStep, rxPop_hold hf hq]

/-- Settles O36: the enabled rule is the search or the body rule, and the pop of either holds. -/
theorem waitingKeepsTheState : Obligations.WaitingKeepsTheState := by
  intro s v hk hv hf hq hop hwait
  rw [step_block hk, blockTurn, enabledRule_enterTurn]
  obtain ⟨hfsm, hph⟩ | ⟨hfsm, hb⟩ := hwait
  · rw [enabledRule_search hv hop hfsm hph]
    exact congrArg _ (searchStep_hold v (s := enterTurn s) hf hq)
  · rw [enabledRule_body hv hop hfsm hb]
    exact congrArg _ (bodyStep_hold (s := enterTurn s) hf hq)

/-! ### The discard -/

/-- A flush step drops bytes from the front of the queue, none where the transport has failed, and the cursor counts it
(R46, R154). -/
theorem drainFlushStep_drops_front (s : State) :
    ∃ dropped kept, s.rxq = dropped ++ kept ∧
      drainFlushStep s = { s with drainPh := .no, rxq := kept, cur := s.cur + dropped.length } := by
  obtain ⟨-, e⟩ | ⟨-, e⟩ := drainFlushStep_cases s
  · exact ⟨[], s.rxq, rfl, e⟩
  · obtain ⟨dropped, hsplit, hlen⟩ := afterFlush_spec s.flushKeep s.rxq
    exact ⟨dropped, _, hsplit, by rw [e, hlen]⟩

/-- Settles O41: the enabled rule is the flush rule, in the state in which the turn is taken. -/
theorem flushDropsAPrefix : Obligations.FlushDropsAPrefix := by
  intro s v hk hv hop hfsm hph
  obtain ⟨dropped, kept, hsplit, e⟩ := drainFlushStep_drops_front (enterTurn s)
  refine ⟨dropped, kept, hsplit, ?_⟩
  rw [step_block hk, blockTurn, enabledRule_enterTurn, enabledRule_drainFlush hv hop hfsm hph]
  exact congrArg _ e

end Sys2Proof.Machine
end

section
/-! PROOFS. The family of spec/30_encoding.md: decoding an encoding gives the instruction back, format by format, and
what decodes as a packet or as a configuration frame is the encoding of what it decodes to. -/

namespace Sys2Proof

/-! ### Word operands -/

/-- The two bytes of a word are read as that word (R78). -/
@[simp] theorem decodeWord_halfBytes (f : Half → Decoded) (w : Half) : decodeWord f (halfBytes w) = f w := by
  simp [decodeWord, halfBytes]

/-- On the command port the two bytes of a word are read as a command word (R72). -/
@[simp] theorem decode_cmd_halfBytes (w : Half) : decode (.port .cmd) (halfBytes w) = decodeCommand w :=
  decodeWord_halfBytes decodeCommand w

/-- The opcode field is the word's number divided by 4096 (R72). -/
theorem opcode_toNat (w : Half) : (w.extractLsb' 12 4).toNat = w.toNat / 4096 := by
  rw [BitVec.extractLsb'_toNat, Nat.shiftRight_eq_div_pow]
  have := w.isLt
  omega

/-- The command word with opcode 1 (R72). -/
theorem decodeCommand_cfgenc {w : Half} (h : w.toNat / 4096 = 1) :
    decodeCommand w = .instr (.cfgenc (w.extractLsb' 9 3) (w.extractLsb' 6 3) (w.getLsbD 5)) := by
  simp only [decodeCommand, opcode_toNat, h]

/-- The command word with opcode 2 (R72). -/
theorem decodeCommand_read1 {w : Half} (h : w.toNat / 4096 = 2) :
    decodeCommand w = .instr (.read1 (w.getLsbD 11)) := by
  simp only [decodeCommand, opcode_toNat, h]

/-- The command word with opcode 3 (R72). -/
theorem decodeCommand_readall {w : Half} (h : w.toNat / 4096 = 3) : decodeCommand w = .instr .readall := by
  simp only [decodeCommand, opcode_toNat, h]

/-- Every other opcode is reserved (R74). -/
theorem decodeCommand_reserved {w : Half} (h : w.toNat / 4096 = 0 ∨ 4 ≤ w.toNat / 4096) :
    decodeCommand w = .rejected .reservedOpcode := by
  unfold decodeCommand
  rw [opcode_toNat]
  split
  case h_4 => rfl
  all_goals omega

/-- A field with `lo` below it is read at the width of `lo`. -/
theorem extractLsb'_append_append {n k m : Nat} (hi : BitVec n) (x : BitVec k) (lo : BitVec m) :
    (hi ++ x ++ lo).extractLsb' m k = x := by
  rw [BitVec.extractLsb'_append_eq_of_le le_rfl, Nat.sub_self, BitVec.extractLsb'_append_eq_right]

/-- A one-bit field with `lo` below it is read at the width of `lo`. -/
theorem getLsbD_append_ofBool_append {n m : Nat} (hi : BitVec n) (b : Bool) (lo : BitVec m) :
    (hi ++ BitVec.ofBool b ++ lo).getLsbD m = b := by
  rw [BitVec.getLsbD_append, BitVec.getLsbD_append]
  simp

/-- The fields of a CFGENC word are read from where they were written (R72). -/
theorem decodeCommand_cfgencWord (speedSel filterSel : BitVec 3) (zero : Bool) :
    decodeCommand (1#4 ++ speedSel ++ filterSel ++ BitVec.ofBool zero ++ 0#5)
      = .instr (.cfgenc speedSel filterSel zero) := by
  rw [decodeCommand_cfgenc]
  · rw [getLsbD_append_ofBool_append, BitVec.extractLsb'_append_eq_of_le, BitVec.extractLsb'_append_eq_of_le,
      extractLsb'_append_append, BitVec.extractLsb'_append_eq_of_le, extractLsb'_append_append]
    all_goals decide
  · rw [← opcode_toNat, BitVec.extractLsb'_append_eq_of_le, BitVec.extractLsb'_append_eq_of_le,
      BitVec.extractLsb'_append_eq_of_le, BitVec.extractLsb'_append_eq_left]
    all_goals decide

/-- The fields of a READ1 word are read from where they were written (R72). -/
theorem decodeCommand_read1Word (drainLatest : Bool) :
    decodeCommand (2#4 ++ BitVec.ofBool drainLatest ++ 0#11) = .instr (.read1 drainLatest) := by
  rw [decodeCommand_read1]
  · rw [getLsbD_append_ofBool_append]
  · rw [← opcode_toNat, BitVec.extractLsb'_append_eq_of_le, BitVec.extractLsb'_append_eq_left]
    all_goals decide

/-! ### Configuration frames -/

@[simp] theorem speedOfCode_speedCode (speed : Speed) : speedOfCode (speedCode speed) = some speed := by
  cases speed <;> rfl

@[simp] theorem filterOfCode_filterCode (filter : Filter) : filterOfCode (filterCode filter) = some filter := by
  cases filter <;> rfl

@[simp] theorem zeroOfFlag_zeroFlag (zero : Bool) : zeroOfFlag (zeroFlag zero) = some zero := by
  cases zero <;> rfl

/-- A configuration frame with any checksum field is read back (R66). -/
theorem decodeCfgFrame_encode (speed : Speed) (filter : Filter) (zero : Bool) (checksum : Half) :
    decodeCfgFrame (encode (.cfgframe speed filter zero checksum)) = .instr (.cfgframe speed filter zero checksum) := by
  simp [decodeCfgFrame, encode, cfgPrefix, halfBytes]

/-- The operand bytes of CSUM.OUT are read back, whatever they are (R92). -/
theorem decodeCsumOut_encode (s f z : Byte) : decodeCsumOut (encode (.csumOut s f z)) = .instr (.csumOut s f z) := by
  simp [decodeCsumOut, encode, cfgPrefix]

/-- The operands of CSUM.IN and CSUM.VALID are read back (R90). -/
theorem decodeCsum_hdrOf (mk : Byte → List Byte → Instr) (h : Byte) {body : List Byte} (hb : 2 ≤ body.length) :
    decodeCsum mk (hdrOf h ++ body) = .instr (mk h body) := by
  have e : afterPrefix [0xAA, 0x07, 0x08] (hdrOf h ++ body) = some (h :: body) := afterPrefix_append _ _
  simp only [decodeCsum, e, if_pos hb]

/-! ### Packets -/

/-- A packet's body is read as the fields it was built from (R61 to R64). -/
@[simp] theorem halves_packetBody (count status : Half) (samples : List Triple) (checksum : Half) :
    halves (packetBody count status samples checksum)
      = some (count :: status :: (samples.flatMap tripleHalves ++ [checksum])) :=
  halves_halfBytes _

/-- Behind the variant's own header the body is decoded (R65). -/
@[simp] theorem decode_hdr_append (v : Variant) (body : List Byte) :
    decode (.packet v) (hdr v ++ body) = decodeBody v body := by
  simp only [decode, decodePacket, afterPrefix_append]

/-- Bytes are a header and a body exactly if they begin with the header and have the packet's length (R6, R65). -/
theorem exists_body_iff {v : Variant} {bs : List Byte} :
    (∃ body, bs = hdr v ++ body ∧ body.length = blen v) ↔ bs.take 4 = hdr v ∧ bs.length = total v := by
  constructor
  · rintro ⟨body, rfl, hl⟩
    exact ⟨List.take_left' (hdr_length v), by simp [hl, total_eq]⟩
  · rintro ⟨hh, hl⟩
    exact ⟨bs.drop 4, by rw [← hh, List.take_append_drop], by simp [hl, total_eq]⟩

end Sys2Proof

namespace Sys2Proof.Machine

/-- Settles O2: what decodes is the header and a body of `BLEN` bytes, and any such body decodes. -/
theorem packetsAreRecognisedByOneHeader : Obligations.PacketsAreRecognisedByOneHeader := by
  intro v bs
  refine ⟨?_, fun i h => encode_of_decode_packet h⟩
  rw [← exists_body_iff]
  constructor
  · rintro ⟨i, h⟩
    exact packet_eq_hdr_append h
  · rintro ⟨body, rfl, hl⟩
    exact decode_body hl

/-- Settles O3: the code tables are read and written alike. -/
theorem frameBytesAreTheirEncoding : Obligations.FrameBytesAreTheirEncoding := by
  intro bs i h
  obtain ⟨_, _, _, _, -, rfl⟩ := decodeCfgFrame_eq h
  rfl

/-- Settles O4: each clause is the opcode's equation, and the written words are evaluated. -/
theorem wordsOfTheSpecDecode : Obligations.WordsOfTheSpecDecode := by
  refine ⟨fun w => ?_, by decide, by decide, by decide, by decide, by decide, by decide⟩
  rw [decode_cmd_halfBytes]
  refine ⟨decodeCommand_cfgenc, decodeCommand_read1, decodeCommand_readall, fun h i => ?_⟩
  simp [decodeCommand_reserved h]

/-- Settles O1: format by format, each field is read from where the encoder wrote it. -/
theorem decodeOfEncodeIsTheInstruction : Obligations.DecodeOfEncodeIsTheInstruction := by
  intro i hwf
  cases i with
  | cfgenc speedSel filterSel zero =>
    simp only [encode, Instr.slot, decode_cmd_halfBytes, decodeCommand_cfgencWord]
  | read1 drainLatest => simp only [encode, Instr.slot, decode_cmd_halfBytes, decodeCommand_read1Word]
  | readall => rfl
  | parseC count status f checksum => simp [encode, Instr.slot, decodeBody, tripleHalves, compactFields]
  | parseE count status f t checksum => simp [encode, Instr.slot, decodeBody, tripleHalves, extendedFields]
  | parseM count status f0 f1 f2 f3 checksum => simp [encode, Instr.slot, decodeBody, tripleHalves, multiFields]
  | cfgframe speed filter zero checksum => exact decodeCfgFrame_encode speed filter zero checksum
  | csumIn h body => exact decodeCsum_hdrOf _ h (by simpa [Instr.wellFormed] using hwf)
  | csumValid h body => exact decodeCsum_hdrOf _ h (by simpa [Instr.wellFormed] using hwf)
  | csumOut s f z => exact decodeCsumOut_encode s f z
  | statdec w => simp only [encode, Instr.slot, decode, decodePort, decodeWord_halfBytes]
  | noerr w => simp only [encode, Instr.slot, decode, decodePort, decodeWord_halfBytes]
  | scale a r => simp only [encode, Instr.slot, decode, decodePort, decodeWord_halfBytes]
  | daq c =>
    simp only [encode, Instr.slot, decode, decodePort, decodeWord_halfBytes]
    rw [BitVec.extractLsb'_append_eq_left]
  | sen c =>
    simp only [encode, Instr.slot, decode, decodePort, decodeWord_halfBytes]
    rw [extractLsb'_append_append]
  | ovld flags =>
    simp only [encode, Instr.slot, decode, decodePort, decodeWord_halfBytes]
    rw [extractLsb'_append_append]
  | mult b =>
    simp only [encode, Instr.slot, decode, decodePort, decodeWord_halfBytes]
    rw [getLsbD_append_ofBool_append]
  | sidx c =>
    simp only [encode, Instr.slot, decode, decodePort, decodeWord_halfBytes]
    rw [BitVec.extractLsb'_append_eq_right]

end Sys2Proof.Machine
end

section
/-! PROOFS. The family of spec/40_checksum.md: the sums and the validity bit of CSUM.IN, CSUM.VALID and CSUM.OUT, what a
plain sum cannot detect, the bounds for whole packets, and that a Reading has no other source than the body buffer. -/

namespace Sys2Proof.Machine

/-! ### Sums of bytes -/

/-- The header operand of CSUM.IN and CSUM.VALID adds its constant bytes and its last one (R90). -/
theorem byteSum_hdrOf (h : Byte) : byteSum (hdrOf h) = 0xAA + 0x07 + 0x08 + h.toNat := by
  simp [byteSum, hdrOf, ← Nat.add_assoc]

/-- The seven bytes before the outgoing checksum add 223 and the three operands (R92). -/
theorem byteSum_cfgPrefix (speedC filterC zeroF : Byte) :
    byteSum (cfgPrefix speedC filterC zeroF) = 223 + speedC.toNat + filterC.toNat + zeroF.toNat := by
  simp [byteSum, cfgPrefix, cfgHeader, ← Nat.add_assoc]

/-- No byte adds more than 255 (R94). -/
theorem byteSum_le (bs : List Byte) : byteSum bs ≤ 255 * bs.length := by
  induction bs with
  | nil => exact le_rfl
  | cons b bs ih =>
    have hb := b.isLt
    simp only [byteSum, List.map_cons, List.sum_cons, List.length_cons] at ih ⊢
    omega

/-- The high byte of a field is its quotient by 256 (R67). -/
theorem highByte_toNat (w : Half) : (w.extractLsb' 8 8).toNat = w.toNat / 256 := by
  have := w.isLt
  rw [BitVec.extractLsb'_toNat, Nat.shiftRight_eq_div_pow]
  omega

/-- The low byte of a field is its remainder by 256 (R67). -/
theorem lowByte_toNat (w : Half) : (w.extractLsb' 0 8).toNat = w.toNat % 256 := by
  rw [BitVec.extractLsb'_toNat, Nat.shiftRight_zero]

/-- The incoming sum as a number (R90). -/
theorem checksumIn_toNat (header body : List Byte) :
    (checksumIn header body).toNat = (byteSum header + byteSum (body.take (body.length - 2))) % 65536 :=
  BitVec.toNat_ofNat _ _

/-- The outgoing sum as a number: three bytes over 223 do not reach 65536 (R92). -/
theorem checksumOut_cfgPrefix_toNat (speedC filterC zeroF : Byte) :
    (checksumOut (cfgPrefix speedC filterC zeroF)).toNat
      = 223 + speedC.toNat + filterC.toNat + zeroF.toNat := by
  have hs := speedC.isLt
  have hf := filterC.isLt
  have hz := zeroF.isLt
  have htake : (cfgPrefix speedC filterC zeroF).take 7 = cfgPrefix speedC filterC zeroF := rfl
  rw [checksumOut, htake, sum16, BitVec.toNat_ofNat, byteSum_cfgPrefix]
  omega

/-! ### The free-standing copies -/

section Copies

variable {h : Byte} {body : List Byte}

/-- CSUM.IN answers for a body of two bytes or more (R90). -/
theorem exec_csumIn (hb : 2 ≤ body.length) (s : State) :
    exec (.csumIn h body) s = .next (answer (.csumIn (checksumIn (hdrOf h) body)) s) :=
  if_pos hb

/-- CSUM.VALID answers for a body of two bytes or more (R91). -/
theorem exec_csumValid (hb : 2 ≤ body.length) (s : State) :
    exec (.csumValid h body) s = .next (answer (.csumValid (checksumOk (hdrOf h) body)) s) :=
  if_pos hb

/-- CSUM.IN refuses a shorter body (log entry 21). -/
theorem exec_csumIn_short (hb : body.length < 2) (s : State) : exec (.csumIn h body) s = .refused .shortBody :=
  if_neg hb.not_ge

/-- CSUM.VALID refuses a shorter body (log entry 21). -/
theorem exec_csumValid_short (hb : body.length < 2) (s : State) :
    exec (.csumValid h body) s = .refused .shortBody :=
  if_neg hb.not_ge

/-- Operand bytes with a shorter body do not decode (R90). -/
theorem decodeCsum_short (mk : Byte → List Byte → Instr) (hb : body.length < 2) :
    decodeCsum mk (0xAA :: 0x07 :: 0x08 :: h :: body) = .rejected .wrongLength := by
  have e : afterPrefix [0xAA, 0x07, 0x08] (0xAA :: 0x07 :: 0x08 :: h :: body) = some (h :: body) :=
    afterPrefix_append _ _
  simp only [decodeCsum, e, if_neg hb.not_ge]

end Copies

/-- Settles O8: the covered bytes are the body without its last two. -/
theorem csumInIsTheSumOfTheCoveredBytes : Obligations.CsumInIsTheSumOfTheCoveredBytes := by
  intro h body s hb
  have hcovered : body.take (body.length - 2) = body.dropLast.dropLast := by
    rw [List.dropLast_eq_take, List.length_dropLast, List.dropLast_eq_take, List.take_take,
      Nat.min_eq_left (Nat.sub_le _ _), Nat.sub_sub]
  refine ⟨_, exec_csumIn hb s, ?_⟩
  rw [checksumIn_toNat, byteSum_hdrOf, hcovered]
  rfl

/-- Settles O9: the validity bit is the comparison of the sum with the field in the last two bytes. -/
theorem csumValidComparesWithTheLastTwoBytes : Obligations.CsumValidComparesWithTheLastTwoBytes := by
  intro h covered x y s
  refine ⟨_, exec_csumValid (by simp) s, ?_⟩
  rw [checksumOk_append, byteSum_hdrOf, beq_iff_eq]
  rfl

/-- Settles O10: both units and their decoder test the same length. -/
theorem shortBodiesAreRefused : Obligations.ShortBodiesAreRefused :=
  fun _ _ s hb =>
    ⟨exec_csumIn_short hb s, exec_csumValid_short hb s, decodeCsum_short _ hb, decodeCsum_short _ hb⟩

/-- Settles O11: the sum does not wrap, and its bytes are its quotient and remainder by 256. -/
theorem csumOutIsTheSumOfSevenBytes : Obligations.CsumOutIsTheSumOfSevenBytes :=
  fun sc fc zf _ =>
    ⟨_, rfl, checksumOut_cfgPrefix_toNat sc fc zf, _, _, rfl, highByte_toNat _, lowByte_toNat _⟩

/-! ### What the sum does not detect -/

/-- A reordering of the covered bytes, or changes of them whose total is a multiple of 65536, leave their sum modulo
65536 (R96). -/
theorem byteSum_modEq {covered other : List Byte}
    (h : covered.Perm other ∨ (65536 : ℤ) ∣ (covered.map BitVec.toNat).sum - (other.map BitVec.toNat).sum) :
    byteSum covered ≡ byteSum other [MOD 65536] := by
  obtain hperm | hdvd := h
  · have e : byteSum covered = byteSum other := (hperm.map BitVec.toNat).sum_eq
    exact congrArg (· % 65536) e
  · exact (Nat.modEq_iff_dvd.2 hdvd).symm

/-- Settles O12: the sum and the validity bit read the covered bytes by their sum modulo 65536 alone. -/
theorem reorderedBytesPassTheChecksum : Obligations.ReorderedBytesPassTheChecksum := by
  intro header covered other x y h
  have hsum : (byteSum header + byteSum covered) % 65536 = (byteSum header + byteSum other) % 65536 :=
    (byteSum_modEq h).add_left (byteSum header)
  rw [checksumIn_append, checksumIn_append, checksumOk_append, checksumOk_append, hsum]
  exact ⟨BitVec.eq_of_toNat_eq hsum, rfl⟩

/-! ### Whole packets -/

/-- The covered bytes of a body of `BLEN` bytes add at most 255 each (R94). -/
theorem byteSum_covered_le {v : Variant} {body : List Byte} (hl : body.length = blen v) :
    byteSum (body.take (blen v - 2)) ≤ 255 * (blen v - 2) := by
  simpa [hl] using byteSum_le (body.take (blen v - 2))

/-- Over a whole packet the incoming sum does not wrap (R94). -/
theorem checksumIn_hdr_toNat {v : Variant} {body : List Byte} (hl : body.length = blen v) :
    (checksumIn (hdr v) body).toNat = byteSum (hdr v) + byteSum (body.take (blen v - 2)) := by
  have hcovered := byteSum_covered_le hl
  have hmax : byteSum (hdr v) + 255 * (blen v - 2) < 65536 := by cases v <;> decide
  rw [checksumIn_toNat, hl]
  omega

/-- Settles O13: the header alone adds 195 or more, and the covered bytes at most 255 each. -/
theorem packetSumsAreBounded : Obligations.PacketSumsAreBounded := by
  intro v body hl
  rw [checksumIn_hdr_toNat hl]
  refine ⟨rfl, ?_, ?_⟩
  · have hmin : 195 ≤ byteSum (hdr v) := by cases v <;> decide
    exact Nat.le_add_right_of_le hmin
  · refine (Nat.add_le_add_left (byteSum_covered_le hl) _).trans ?_
    cases v <;> decide

/-! ### The Reading of a body -/

/-- The decode step writes its Reading whatever operation it belongs to (R158). -/
@[simp] theorem decodeStep_rd (r : Reading) (s : State) : (decodeStep r s).rd = r := by
  cases hop : s.op <;> simp [decodeStep, afterReading, emit, endOp, hop]

/-- The decode rule is enabled (R158). -/
theorem enabledRule_decode {s : State} {v : Variant} (hv : s.variant = some v) (hop : s.op = .read1 ∨ s.op = .readAll)
    (hfsm : s.fsm = .bodyPending) (hb : s.bidx = blen v) : enabledRule s = .decode v := by
  simp [enabledRule_of_read hv hop, enabledRead, hfsm, hb]

/-- The Reading that running the buffered packet leaves is `PARSE` of the body in the buffer (R123, R158). -/
theorem runPacket_rd {v : Variant} {s t : State} (h : runPacket v s = .next t) :
    parse v (s.pbuf.take (blen v)) = some t.rd := by
  unfold runPacket at h
  split at h
  · rename_i i hd
    obtain ⟨hbytes, hslot⟩ := encode_of_decode_packet hd
    obtain ⟨r, hr, hexec⟩ := exec_packet_parse hslot
    have hbody : (encode i).drop 4 = s.pbuf.take (blen v) := by
      rw [hbytes]
      exact List.drop_left' (hdr_length v)
    rw [hexec] at h
    cases h
    rw [← hbody, hr, decodeStep_rd]
  · cases h

/-- A step at the decode rule leaves `PARSE` of the body in the buffer in `RD` (R123, R158). -/
theorem step_decode_rd {s t : State} {v : Variant} (hk : nextTurn s = .block) (hv : s.variant = some v)
    (hop : s.op = .read1 ∨ s.op = .readAll) (hfsm : s.fsm = .bodyPending) (hb : s.bidx = blen v)
    (h : step s = .next t) : parse v (s.pbuf.take (blen v)) = some t.rd := by
  rw [step_block hk, blockTurn, enabledRule_enterTurn, enabledRule_decode hv hop hfsm hb] at h
  exact runPacket_rd (s := enterTurn s) h

/-- Settles O60: both machines' Readings are `PARSE` of one body. -/
theorem readingDependsOnTheBufferOnly : Obligations.ReadingDependsOnTheBufferOnly := by
  intro s s' t t' v hk hk' hfsm hfsm' hop hop' hv hv' hb hb' hbuf h h'
  have e := step_decode_rd hk hv hop hfsm hb h
  have e' := step_decode_rd hk' hv' hop' hfsm' hb' h'
  rw [hbuf] at e
  exact Option.some.inj (e.symm.trans e')

end Sys2Proof.Machine
end

section
/-! PROOFS. The family of spec/41_status_decoder.md: the tables of the field functions, the flags an overload list stands
for, the status word put together again from its five fields, and what each field function's port answers. -/

namespace Sys2Proof.Machine

/-! ### The fields of the word -/

/-- A one-bit field is its bit. -/
theorem extractLsb'_one {n : Nat} (x : BitVec n) (i : Nat) : x.extractLsb' i 1 = BitVec.ofBool (x.getLsbD i) := by
  rw [BitVec.eq_of_getLsbD_eq_iff]
  intro j hj
  obtain rfl : j = 0 := Nat.lt_one_iff.1 hj
  simp

/-- The five fields are the whole word (R100). -/
theorem statusFields_append (w : Half) :
    w.extractLsb' 13 3 ++ w.extractLsb' 10 3 ++ w.extractLsb' 4 6 ++ BitVec.ofBool (w.getLsbD 3) ++ w.extractLsb' 0 3
      = w := by
  rw [← extractLsb'_one]
  iterate 4 rw [BitVec.extractLsb'_append_extractLsb'_eq_extractLsb']
  · exact BitVec.extractLsb'_eq_self
  all_goals rfl

/-- The word is zero exactly if each of its fields is (R109). -/
theorem statusFields_eq_zero_iff (w : Half) :
    w = 0 ↔ w.extractLsb' 13 3 = 0 ∧ w.extractLsb' 10 3 = 0 ∧ w.extractLsb' 4 6 = 0 ∧ w.getLsbD 3 = false ∧
      w.extractLsb' 0 3 = 0 := by
  constructor
  · rintro rfl
    decide
  · rintro ⟨hdaq, hsen, hovld, hmult, hsidx⟩
    rw [← statusFields_append w, hdaq, hsen, hovld, hmult, hsidx]
    rfl

/-! ### The ports of the decoder: each is given the two bytes of a word and reads its own bits of it (R71, R78) -/

section Ports

variable (w : Half)

@[simp] theorem decode_statdec_halfBytes : decode (.port .statdec) (halfBytes w) = .instr (.statdec w) :=
  decodeWord_halfBytes (fun w => .instr (.statdec w)) w

@[simp] theorem decode_daq_halfBytes : decode (.port .daq) (halfBytes w) = .instr (.daq (w.extractLsb' 13 3)) :=
  decodeWord_halfBytes (fun w => .instr (.daq (w.extractLsb' 13 3))) w

@[simp] theorem decode_sen_halfBytes : decode (.port .sen) (halfBytes w) = .instr (.sen (w.extractLsb' 10 3)) :=
  decodeWord_halfBytes (fun w => .instr (.sen (w.extractLsb' 10 3))) w

@[simp] theorem decode_ovld_halfBytes : decode (.port .ovld) (halfBytes w) = .instr (.ovld (w.extractLsb' 4 6)) :=
  decodeWord_halfBytes (fun w => .instr (.ovld (w.extractLsb' 4 6))) w

@[simp] theorem decode_mult_halfBytes : decode (.port .mult) (halfBytes w) = .instr (.mult (w.getLsbD 3)) :=
  decodeWord_halfBytes (fun w => .instr (.mult (w.getLsbD 3))) w

@[simp] theorem decode_sidx_halfBytes : decode (.port .sidx) (halfBytes w) = .instr (.sidx (w.extractLsb' 0 3)) :=
  decodeWord_halfBytes (fun w => .instr (.sidx (w.extractLsb' 0 3))) w

end Ports

/-! ### The tables, code by code -/

/-- The table of DAQ (R101). -/
theorem daqError_iff (c : BitVec 3) :
    (daqError c = .noError ↔ c = 0) ∧ (daqError c = .daqError ↔ c = 1) ∧ (daqError c = .commError ↔ c = 2) ∧
      (daqError c = .reserved ↔ 3 ≤ c.toNat) := by
  revert c; decide

/-- The table of SEN (R102). -/
theorem sensorError_iff (c : BitVec 3) :
    (sensorError c = .noError ↔ c = 0) ∧ (sensorError c = .notDetected ↔ c = 1) ∧ (sensorError c = .failure ↔ c = 2) ∧
      (sensorError c = .temperatureError ↔ c = 4) ∧ (sensorError c = .reserved ↔ c = 3 ∨ 5 ≤ c.toNat) := by
  revert c; decide

/-- The table of MULT (R104). -/
theorem multiplicityOf_iff (b : Bool) :
    (multiplicityOf b = .multiple ↔ b = true) ∧ (multiplicityOf b = .single ↔ b = false) := by
  revert b; decide

/-- The table of SIDX (R105). -/
theorem sensorIndexOf_iff (c : BitVec 3) :
    (sensorIndexOf c = .none ↔ c = 0) ∧ (sensorIndexOf c = .one ↔ c = 1) ∧ (sensorIndexOf c = .two ↔ c = 2) ∧
      (sensorIndexOf c = .three ↔ c = 3) ∧ (sensorIndexOf c = .four ↔ c = 4) ∧
      (sensorIndexOf c = .reserved ↔ 5 ≤ c.toNat) := by
  revert c; decide

/-- Settles O14: the tables, and the bits that the ports read. -/
theorem statusFieldTables : Obligations.StatusFieldTables :=
  fun _ =>
    ⟨fun c => ⟨_, rfl, daqError_iff c⟩, fun c => ⟨_, rfl, sensorError_iff c⟩, fun b => ⟨_, rfl, multiplicityOf_iff b⟩,
      fun c => ⟨_, rfl, sensorIndexOf_iff c⟩,
      fun w => ⟨decode_daq_halfBytes w, decode_sen_halfBytes w, decode_mult_halfBytes w, decode_sidx_halfBytes w⟩⟩

/-! ### The overloaded axes -/

/-- The flag of an axis among the six (R103). -/
def flagOf : Channel → Nat
  | .fx => 5
  | .fy => 4
  | .fz => 3
  | .tx => 2
  | .ty => 1
  | .tz => 0

/-- Each axis stands in the order of R103 with its own flag. -/
theorem mem_channelBits (n : Nat) (a : Channel) : (n, a) ∈ channelBits ↔ n = flagOf a := by
  cases a <;> simp [channelBits, flagOf]

/-- An axis is in the list exactly if its flag is set (R103). -/
@[simp] theorem mem_overloadedAxes (flags : BitVec 6) (a : Channel) :
    a ∈ overloadedAxes flags ↔ flags.getLsbD (flagOf a) = true := by
  simp [overloadedAxes, mem_channelBits]

/-- The list keeps the fixed order, without repeats (R103). -/
theorem overloadedAxes_sublist (flags : BitVec 6) : (overloadedAxes flags).Sublist [.fx, .fy, .fz, .tx, .ty, .tz] :=
  List.filter_sublist.map Prod.snd

/-- The port form of the list is the six flags again (R106). -/
theorem overloadCode_overloadedAxes (flags : BitVec 6) : overloadCode (overloadedAxes flags) = flags := by
  have hbit (a : Channel) :
      BitVec.ofBool ((overloadedAxes flags).contains a) = flags.extractLsb' (flagOf a) 1 := by
    rw [extractLsb'_one, BitVec.ofBool_eq_iff_eq, Bool.eq_iff_iff, List.contains_iff_mem, mem_overloadedAxes]
  rw [overloadCode, hbit, hbit, hbit, hbit, hbit, hbit]
  iterate 5 rw [BitVec.extractLsb'_append_extractLsb'_eq_extractLsb']
  · exact BitVec.extractLsb'_eq_self
  all_goals rfl

/-- No axis is listed exactly if no flag is set (R103). -/
theorem overloadedAxes_eq_nil_iff (flags : BitVec 6) : overloadedAxes flags = [] ↔ flags = 0 := by
  constructor
  · intro h
    rw [← overloadCode_overloadedAxes flags, h]
    rfl
  · rintro rfl
    rfl

/-- Settles O15: the list, and the bits that OVLD's port reads. -/
theorem overloadedAxesInOrder : Obligations.OverloadedAxesInOrder :=
  fun flags _ =>
    ⟨_, rfl, overloadedAxes_sublist flags, mem_overloadedAxes flags .fx, mem_overloadedAxes flags .fy,
      mem_overloadedAxes flags .fz, mem_overloadedAxes flags .tx, mem_overloadedAxes flags .ty,
      mem_overloadedAxes flags .tz, decode_ovld_halfBytes⟩

/-! ### The whole report -/

/-- A port that is given the two bytes of a word runs what it reads from them (R72). -/
theorem present_halfBytes {p : Port} {w : Half} {i : Instr} (h : decode (.port p) (halfBytes w) = .instr i) (s : State) :
    present ⟨p, halfBytes w⟩ s = exec i s :=
  present_of_decode (r := ⟨p, halfBytes w⟩) h s

/-- Settles O16: every port is given the same two bytes, and each reads its own bits of the word. -/
theorem statdecIsItsFiveFields : Obligations.StatdecIsItsFiveFields := by
  intro w s
  refine ⟨statusReport w, rfl, ?_, ?_, ?_, ?_, ?_, ?_, congrArg statusReport⟩
  · exact present_halfBytes (decode_statdec_halfBytes w) s
  · exact present_halfBytes (decode_daq_halfBytes w) s
  · exact present_halfBytes (decode_sen_halfBytes w) s
  · exact present_halfBytes (decode_ovld_halfBytes w) s
  · exact present_halfBytes (decode_mult_halfBytes w) s
  · exact present_halfBytes (decode_sidx_halfBytes w) s

/-- The zero test of NOERR is exact (R108). -/
@[simp] theorem noErrors_iff (w : Half) : noErrors w = true ↔ w = 0 := beq_iff_eq

/-- Settles O17: NOERR and `SR.no_errors` are one zero test. -/
theorem noErrorsMeansTheWordIsZero : Obligations.NoErrorsMeansTheWordIsZero :=
  fun w _ => ⟨_, rfl, noErrors_iff w, congrArg noErrors⟩

/-- Settles O18: a field has its zero value exactly if its bits are zero, and the word is its five fields. -/
theorem noErrorsIffEveryFieldIsZero : Obligations.NoErrorsIffEveryFieldIsZero := by
  intro w
  obtain ⟨hdaq, -⟩ := daqError_iff (w.extractLsb' 13 3)
  obtain ⟨hsen, -⟩ := sensorError_iff (w.extractLsb' 10 3)
  obtain ⟨-, hmult⟩ := multiplicityOf_iff (w.getLsbD 3)
  obtain ⟨hsidx, -⟩ := sensorIndexOf_iff (w.extractLsb' 0 3)
  rw [noErrors_iff, statusFields_eq_zero_iff, statusReport, StatusReport.mk.injEq, hdaq, hsen,
    overloadedAxes_eq_nil_iff, hmult, hsidx]

/-! ### The port form -/

/-- `SR.daq_error` is the code capped at 3 (R106). -/
theorem daqCode_daqError (c : BitVec 3) : (daqCode (daqError c)).toNat = min c.toNat 3 := by
  revert c; decide

/-- `SR.sensor_error`, code by code (R106). -/
theorem sensorCode_sensorError (c : BitVec 3) :
    some (sensorCode (sensorError c)).toNat = [0, 1, 2, 4, 3, 4, 4, 4][c.toNat]? := by
  revert c; decide

/-- `SR.multiplicity` is the bit itself (R106). -/
theorem multiplicityCode_multiplicityOf (b : Bool) : multiplicityCode (multiplicityOf b) = BitVec.ofBool b := by
  cases b <;> rfl

/-- `SR.sensor_index` is the code capped at 5 (R106). -/
theorem sensorIndexCode_sensorIndexOf (c : BitVec 3) : (sensorIndexCode (sensorIndexOf c)).toNat = min c.toNat 5 := by
  revert c; decide

/-- The code of DAQ is the word's number divided by 8192 (R101). -/
theorem daqField_toNat (w : Half) : (w.extractLsb' 13 3).toNat = w.toNat / 8192 := by
  have := w.isLt
  rw [BitVec.extractLsb'_toNat, Nat.shiftRight_eq_div_pow]
  omega

/-- The code of SEN is the three bits above the lowest ten (R102). -/
theorem senField_toNat (w : Half) : (w.extractLsb' 10 3).toNat = w.toNat / 1024 % 8 := by
  rw [BitVec.extractLsb'_toNat, Nat.shiftRight_eq_div_pow]

/-- The code of SIDX is the word's number modulo 8 (R105). -/
theorem sidxField_toNat (w : Half) : (w.extractLsb' 0 3).toNat = w.toNat % 8 := by
  rw [BitVec.extractLsb'_toNat, Nat.shiftRight_zero]

/-- Settles O19: each port code is a function of its field's bits. -/
theorem statusReportPortCodes : Obligations.StatusReportPortCodes := by
  intro w
  refine ⟨?_, ?_, overloadCode_overloadedAxes _, ?_, ?_, noErrors_iff w⟩
  · rw [← daqField_toNat]
    exact daqCode_daqError _
  · rw [← senField_toNat]
    exact sensorCode_sensorError _
  · rw [extractLsb'_one]
    exact multiplicityCode_multiplicityOf _
  · rw [← sidxField_toNat]
    exact sensorIndexCode_sensorIndexOf _

end Sys2Proof.Machine
end

section
/-! PROOFS. binary64 rounding (spec/00_scope.md R7): what the model's natural numbers say as rationals, that a magnitude
is rounded once, to nearest, ties to even, that an integer's conversion is exact, and the product of two values. -/

namespace Sys2Proof.Machine

/-! ### Powers of two with an integer exponent -/

/-- The model keeps the two halves of `2 ^ e` apart, as the numerator's and the denominator's factor. -/
theorem zpow_eq_pow_toNat_div (e : ℤ) : (2 : ℚ) ^ e = 2 ^ e.toNat / 2 ^ (-e).toNat := by
  rw [← zpow_natCast, ← zpow_natCast, ← zpow_sub₀ two_ne_zero, Int.toNat_sub_toNat_neg]

/-- A power of two with a natural exponent, in units of `2 ^ e`. -/
theorem pow_mul_zpow (m : ℕ) (e : ℤ) : ((2 ^ m : ℕ) : ℚ) * 2 ^ e = 2 ^ (m + e : ℤ) := by
  rw [zpow_add₀ two_ne_zero, zpow_natCast, Nat.cast_pow, Nat.cast_ofNat]

/-- A positive number lies between two powers of two (`Nat.log2`, with integer exponents). -/
theorem zpow_log2_bounds {n : ℕ} (hn : 0 < n) : (2 : ℚ) ^ (n.log2 : ℤ) ≤ n ∧ (n : ℚ) < 2 ^ ((n.log2 : ℤ) + 1) :=
  ⟨by exact_mod_cast Nat.log2_self_le hn.ne', by exact_mod_cast Nat.lt_log2_self⟩

/-- The model's comparison is the one of the rationals. -/
theorem atLeastPow2_iff (num : ℕ) {den : ℕ} (hden : 0 < den) (l : ℤ) :
    atLeastPow2 num den l = true ↔ (2 : ℚ) ^ l ≤ num / den := by
  rw [atLeastPow2, decide_eq_true_iff, zpow_eq_pow_toNat_div, div_le_div_iff₀ (by positivity) (by positivity), mul_comm]
  exact_mod_cast Iff.rfl

/-- The exponent of the leading bit is the rounded-down logarithm of the quotient. -/
theorem floorLog2_eq_log {num den : ℕ} (hnum : 0 < num) (hden : 0 < den) :
    floorLog2 num den = Int.log 2 (num / den : ℚ) := by
  have hx : (0 : ℚ) < num / den := by positivity
  obtain ⟨hnlo, hnhi⟩ := zpow_log2_bounds hnum
  obtain ⟨hdlo, hdhi⟩ := zpow_log2_bounds hden
  have hlo : (2 : ℚ) ^ ((num.log2 : ℤ) - (den.log2 + 1)) ≤ num / den := by
    rw [zpow_sub₀ two_ne_zero]
    gcongr
  have hhi : (num / den : ℚ) < 2 ^ ((num.log2 : ℤ) + 1 - den.log2) := by
    rw [zpow_sub₀ two_ne_zero]
    gcongr
  have hlo' := (Int.zpow_le_iff_le_log one_lt_two hx).1 hlo
  have hhi' := (Int.lt_zpow_iff_log_lt one_lt_two hx).1 hhi
  have hmid := (atLeastPow2_iff num hden (num.log2 - den.log2)).trans (Int.zpow_le_iff_le_log one_lt_two hx)
  simp only [floorLog2, hmid]
  split <;> omega

/-! ### Rounding to an integer -/

/-- `nearestEven` is within one half of the quotient, and even where it is exactly one half off (R7). -/
theorem nearestEven_close (num : ℕ) {den : ℕ} (hden : 0 < den) :
    2 * |(nearestEven num den : ℚ) - num / den| ≤ 1 ∧
      (2 * |(nearestEven num den : ℚ) - num / den| = 1 → nearestEven num den % 2 = 0) := by
  have hd : (0 : ℚ) < den := by exact_mod_cast hden
  have hx : (num / den : ℚ) = (num / den : ℕ) + (num % den : ℕ) / den := by
    rw [add_div' _ _ _ hd.ne']
    exact_mod_cast congrArg (fun n : ℕ => (n / den : ℚ)) (Nat.div_add_mod' num den).symm
  have hr : ((num % den : ℕ) / den : ℚ) < 1 := (div_lt_one hd).2 (by exact_mod_cast Nat.mod_lt num hden)
  have htwice : (2 * ((num % den : ℕ) / den) : ℚ) = (2 * (num % den) : ℕ) / den := by push_cast; ring
  rw [nearestEven, hx]
  split
  case isTrue hup =>
    have hdist : 2 * |((num / den + 1 : ℕ) : ℚ) - ((num / den : ℕ) + (num % den : ℕ) / den)|
        = 2 - (2 * (num % den) : ℕ) / den := by
      rw [← htwice, Nat.cast_succ, abs_of_nonneg] <;> linarith
    have hhalf : den ≤ 2 * (num % den) := by omega
    have hge : (1 : ℚ) ≤ (2 * (num % den) : ℕ) / den := (one_le_div hd).2 (by exact_mod_cast hhalf)
    refine ⟨by linarith, fun h => ?_⟩
    have htie : ((2 * (num % den) : ℕ) : ℚ) = den := (div_eq_one_iff_eq hd.ne').1 (by linarith)
    norm_cast at htie
    omega
  case isFalse hdown =>
    have hdist : 2 * |((num / den : ℕ) : ℚ) - ((num / den : ℕ) + (num % den : ℕ) / den)|
        = (2 * (num % den) : ℕ) / den := by
      rw [sub_add_cancel_left, abs_neg, abs_of_nonneg (by positivity), htwice]
    rw [hdist, div_le_one hd, div_eq_one_iff_eq hd.ne']
    norm_cast
    omega

/-- An integer not above the quotient is not above what it rounds to. -/
theorem le_nearestEven {num den n : ℕ} (hden : 0 < den) (h : (n : ℚ) ≤ num / den) : n ≤ nearestEven num den := by
  obtain ⟨hclose, -⟩ := nearestEven_close num hden
  have habs := neg_abs_le ((nearestEven num den : ℚ) - num / den)
  have hlt : (n : ℚ) < (nearestEven num den + 1 : ℕ) := by push_cast; linarith
  exact Nat.lt_succ_iff.1 (by exact_mod_cast hlt)

/-- An integer not below the quotient is not below what it rounds to. -/
theorem nearestEven_le {num den n : ℕ} (hden : 0 < den) (h : (num / den : ℚ) ≤ n) : nearestEven num den ≤ n := by
  obtain ⟨hclose, -⟩ := nearestEven_close num hden
  have habs := le_abs_self ((nearestEven num den : ℚ) - num / den)
  have hlt : (nearestEven num den : ℚ) < (n + 1 : ℕ) := by push_cast; linarith
  exact Nat.lt_succ_iff.1 (by exact_mod_cast hlt)

/-! ### Rounding to binary64 -/

/-- `n` units of `2 ^ (k - 1074)` are the binary64 magnitude nearest to `x`, ties to even: `k` is what the exponent adds
to the exponent field, and `n` is the significand with its leading bit, which a carry may have pushed to `2 ^ 53`. -/
structure NearestUnits (k n : ℕ) (x : ℚ) : Prop where
  finite : k ≤ 2044
  atMost : n ≤ 2 ^ 53
  normal : k = 0 ∨ 2 ^ 52 ≤ n
  close : 2 * |n * (2 : ℚ) ^ ((k : ℤ) - 1074) - x| ≤ 2 ^ ((k : ℤ) - 1074)
  even : 2 * |n * (2 : ℚ) ^ ((k : ℤ) - 1074) - x| = 2 ^ ((k : ℤ) - 1074) → n % 2 = 0

/-- The fraction that is rounded is the quotient in units of `2 ^ e`. -/
theorem scaled_quotient (num den : ℕ) (e : ℤ) :
    ((num * 2 ^ (-e).toNat : ℕ) / (den * 2 ^ e.toNat : ℕ) : ℚ) = num / den / 2 ^ e := by
  rw [zpow_eq_pow_toNat_div]
  push_cast
  field_simp

/-- Rounding to an integer number of units of `2 ^ e`, to nearest, ties to even. -/
theorem nearestEven_units (num : ℕ) {den : ℕ} (hden : 0 < den) (e : ℤ) :
    2 * |nearestEven (num * 2 ^ (-e).toNat) (den * 2 ^ e.toNat) * (2 : ℚ) ^ e - num / den| ≤ 2 ^ e ∧
      (2 * |nearestEven (num * 2 ^ (-e).toNat) (den * 2 ^ e.toNat) * (2 : ℚ) ^ e - num / den| = 2 ^ e →
        nearestEven (num * 2 ^ (-e).toNat) (den * 2 ^ e.toNat) % 2 = 0) := by
  have hu : (0 : ℚ) < 2 ^ e := by positivity
  have hclose := nearestEven_close (num * 2 ^ (-e).toNat) (Nat.mul_pos hden (Nat.two_pow_pos e.toNat))
  rw [scaled_quotient] at hclose
  generalize nearestEven _ _ = n at *
  have hdist : 2 * |n * (2 : ℚ) ^ e - num / den| = 2 * |(n : ℚ) - num / den / 2 ^ e| * 2 ^ e := by
    have hfactor : n * (2 : ℚ) ^ e - num / den = (n - num / den / 2 ^ e) * 2 ^ e := by field_simp
    rw [hfactor, abs_mul, abs_of_pos hu, mul_assoc]
  rwa [hdist, mul_le_iff_le_one_left hu, mul_eq_right₀ hu.ne']

/-- The rounded magnitude, below the overflow threshold, is the nearest one. -/
theorem roundMagnitude_nearest (num : ℕ) {den : ℕ} (hden : 0 < den) (hx : (num / den : ℚ) < 2 ^ (1023 : ℤ)) :
    ∃ k n, roundMagnitude num den = k * 2 ^ 52 + n ∧ NearestUnits k n (num / den) := by
  rcases num.eq_zero_or_pos with rfl | hnum
  · exact ⟨0, 0, rfl, by decide, by decide, .inl rfl, by simp, fun _ => rfl⟩
  have hpos : (0 : ℚ) < num / den := by positivity
  have hlog := floorLog2_eq_log hnum hden
  have hElo := Int.zpow_log_le_self one_lt_two hpos
  have hEhi := Int.lt_zpow_succ_log_self one_lt_two (num / den : ℚ)
  have hE := (Int.lt_zpow_iff_log_lt one_lt_two hpos).1 hx
  rw [← hlog] at hElo hEhi hE
  have he : ulpExp num den = max (floorLog2 num den) (-1022) - 52 := rfl
  have hk : (((ulpExp num den + 1074).toNat : ℕ) : ℤ) - 1074 = ulpExp num den := by omega
  obtain ⟨hclose, heven⟩ := nearestEven_units num hden (ulpExp num den)
  set n := nearestEven (num * 2 ^ (-ulpExp num den).toNat) (den * 2 ^ (ulpExp num den).toNat)
  have hmost : n ≤ 2 ^ 53 := by
    refine nearestEven_le (Nat.mul_pos hden (Nat.two_pow_pos _)) ?_
    rw [scaled_quotient, div_le_iff₀ (by positivity), pow_mul_zpow]
    exact hEhi.le.trans (zpow_le_zpow_right₀ one_le_two (by omega))
  have hnormal : (ulpExp num den + 1074).toNat = 0 ∨ 2 ^ 52 ≤ n := by
    refine or_iff_not_imp_left.2 fun hk0 => le_nearestEven (Nat.mul_pos hden (Nat.two_pow_pos _)) ?_
    rw [scaled_quotient, le_div_iff₀ (by positivity), pow_mul_zpow]
    exact (zpow_le_zpow_right₀ one_le_two (by omega)).trans hElo
  refine ⟨(ulpExp num den + 1074).toNat, n, ?_, by omega, hmost, hnormal, ?_, ?_⟩
  · rw [roundMagnitude, if_neg hnum.ne']
    omega
  · rwa [hk]
  · rwa [hk]

/-- An integer that fits in the significand is its own nearest value. -/
theorem NearestUnits.eq_of_integer {k n m : ℕ} (h : NearestUnits k n m) (hm : m ≤ 2 ^ 51) :
    (n : ℚ) * 2 ^ ((k : ℤ) - 1074) = m := by
  have hu : (0 : ℚ) < 2 ^ ((k : ℤ) - 1074) := by positivity
  have hclose := h.close
  have hk : k ≤ 1074 := by
    rcases h.normal with hk0 | hn
    · omega
    have hmQ : (m : ℚ) ≤ 2 ^ 51 := by exact_mod_cast hm
    have hnQ : (2 ^ 52 : ℚ) ≤ n := by exact_mod_cast hn
    have hnu := mul_le_mul_of_nonneg_right hnQ hu.le
    have hone : (2 : ℚ) ^ ((k : ℤ) - 1074) < 2 ^ (0 : ℤ) := by
      linarith [le_abs_self (n * (2 : ℚ) ^ ((k : ℤ) - 1074) - m)]
    have := (zpow_lt_zpow_iff_right₀ one_lt_two).1 hone
    omega
  have hmu : (m : ℚ) = (m * 2 ^ (1074 - k) : ℕ) * 2 ^ ((k : ℤ) - 1074) := by
    rw [Nat.cast_mul, mul_assoc, pow_mul_zpow, Nat.cast_sub hk]
    simp
  rw [hmu, ← sub_mul, abs_mul, abs_of_pos hu, ← mul_assoc, mul_le_iff_le_one_left hu] at hclose
  have hint : 2 * |(n : ℤ) - (m * 2 ^ (1074 - k) : ℕ)| ≤ 1 := by exact_mod_cast hclose
  have hn : (n : ℤ) = (m * 2 ^ (1074 - k) : ℕ) := sub_eq_zero.1 (Int.abs_lt_one_iff.1 (by omega))
  rw [hmu, Int.ofNat.inj hn]

/-! ### The value of a pattern -/

@[simp] theorem f64Sign_pack (neg : Bool) (magnitude : ℕ) : f64Sign (f64Pack neg magnitude) = neg := by
  rw [f64Sign, f64Pack, BitVec.getLsbD_append]
  cases neg <;> rfl

@[simp] theorem f64Magnitude_pack (neg : Bool) (magnitude : ℕ) :
    f64Magnitude (f64Pack neg magnitude) = magnitude % 2 ^ 63 := by
  rw [f64Magnitude, f64Pack, BitVec.extractLsb'_append_eq_right, BitVec.toNat_ofNat]

/-- The other sign bit over the same magnitude. -/
theorem f64Pack_not (neg : Bool) (magnitude : ℕ) :
    f64Pack (!neg) magnitude = f64Pack neg magnitude ^^^ 0x8000000000000000 := by
  have hbit : (0x8000000000000000 : F64) = BitVec.ofBool true ++ 0#63 := by decide
  rw [f64Pack, f64Pack, hbit, BitVec.xor_append, BitVec.xor_zero]
  cases neg <;> rfl

/-- A rounded magnitude fits below the sign bit. -/
theorem f64Magnitude_pack_roundMagnitude (neg : Bool) (num den : ℕ) :
    f64Magnitude (f64Pack neg (roundMagnitude num den)) = roundMagnitude num den := by
  rw [f64Magnitude_pack, Nat.mod_eq_of_lt]
  rw [roundMagnitude]
  split
  · decide
  · omega

/-- The numerator and the denominator do not depend on the sign. -/
theorem f64Num_f64Den_congr {a b : F64} (h : f64Magnitude a = f64Magnitude b) :
    f64Num a = f64Num b ∧ f64Den a = f64Den b := by
  simp [f64Num, f64Den, f64Significand, f64Exp, h]

/-- A denominator is a power of two. -/
theorem f64Den_pos (a : F64) : 0 < f64Den a := Nat.two_pow_pos _

/-- The fraction is the value without its sign. -/
theorem abs_f64Value (a : F64) : |f64Value a| = f64Num a / f64Den a := by
  rw [f64Value, abs_mul, abs_of_nonneg (a := (f64Num a / f64Den a : ℚ)) (by positivity)]
  split <;> simp

/-- A value is its sign and its absolute value. -/
theorem f64Value_eq_sign_mul_abs (a : F64) : f64Value a = (if f64Sign a then -1 else 1) * |f64Value a| := by
  rw [abs_f64Value, f64Value]

/-- The absolute value counts units in the last place (R7). -/
theorem abs_f64Value_eq_units (a : F64) : |f64Value a| = f64Significand a * 2 ^ f64Exp a := by
  rw [abs_f64Value, f64Num, f64Den, zpow_eq_pow_toNat_div]
  push_cast
  ring

section Nearest

variable {k n : ℕ} {x : ℚ} {v : F64} (h : NearestUnits k n x) (hv : f64Magnitude v = k * 2 ^ 52 + n)
include h hv

/-- The units are the pattern's own, but for a carry, which the pattern holds as half as many units twice as large. -/
theorem NearestUnits.significand_cases :
    (f64Significand v = n ∧ f64Exp v = k - 1074) ∨ (f64Significand v = 2 ^ 52 ∧ n = 2 ^ 53 ∧ f64Exp v = k - 1073) := by
  have hmost := h.atMost
  have hnormal := h.normal
  rw [f64Significand, f64Exp, hv]
  split <;> omega

/-- The pattern's value is the units counted, with or without a carry. -/
theorem NearestUnits.abs_value : |f64Value v| = n * 2 ^ ((k : ℤ) - 1074) := by
  rw [abs_f64Value_eq_units]
  obtain ⟨hs, he⟩ | ⟨hs, hn, he⟩ := h.significand_cases hv
  · rw [hs, he]
  · rw [hs, hn, he, pow_mul_zpow, pow_mul_zpow]
    congr 1
    omega

/-- The pattern's value is within half a unit in its last place, and exactly half way only with an even significand. -/
theorem NearestUnits.value_close :
    2 * |(|f64Value v| - x)| ≤ f64Ulp v ∧ (2 * |(|f64Value v| - x)| = f64Ulp v → f64Significand v % 2 = 0) := by
  rw [h.abs_value hv, f64Ulp]
  obtain ⟨hs, he⟩ | ⟨hs, -, he⟩ := h.significand_cases hv <;> rw [hs, he]
  · exact ⟨h.close, h.even⟩
  · exact ⟨h.close.trans (zpow_le_zpow_right₀ one_le_two (by omega)), fun _ => rfl⟩

/-- The pattern of a number of `2 ^ (-1020)` or more is a normal one. -/
theorem NearestUnits.exponentField (hx : 2 ^ (-1020 : ℤ) ≤ x) :
    0 < f64Magnitude v / 2 ^ 52 ∧ f64Magnitude v / 2 ^ 52 < 2047 := by
  have hfinite := h.finite
  have hmost := h.atMost
  have hn : 2 ^ 52 ≤ n := by
    refine h.normal.resolve_left fun hk => ?_
    have hclose := h.close
    have hnu := mul_le_mul_of_nonneg_right (Nat.cast_le (α := ℚ).2 hmost) (zpow_pos two_pos ((k : ℤ) - 1074)).le
    have hxu : ((2 ^ 54 : ℕ) : ℚ) * 2 ^ ((k : ℤ) - 1074) ≤ x := by
      rw [pow_mul_zpow]
      exact (zpow_le_zpow_right₀ one_le_two (by omega)).trans hx
    push_cast at hnu hxu
    linarith [neg_abs_le (n * (2 : ℚ) ^ ((k : ℤ) - 1074) - x), zpow_pos (two_pos (α := ℚ)) ((k : ℤ) - 1074)]
  omega

end Nearest

/-! ### Exact integers and rounded products -/

/-- The sign bit of a converted integer. -/
theorem f64Sign_f64OfInt (i : ℤ) : f64Sign (f64OfInt i) = decide (i < 0) := by
  rw [f64OfInt, f64Sign_pack]

/-- The conversion of an integer is exact (R7, R122). -/
theorem f64Value_f64OfInt {i : ℤ} (hi : i.natAbs ≤ 2 ^ 51) : f64Value (f64OfInt i) = i := by
  have hx : (i.natAbs / (1 : ℕ) : ℚ) < 2 ^ (1023 : ℤ) := by
    rw [Nat.cast_one, div_one]
    refine (Nat.cast_le.2 hi).trans_lt ?_
    rw [Nat.cast_pow, ← zpow_natCast]
    exact zpow_lt_zpow_right₀ one_lt_two (by decide)
  obtain ⟨k, n, hm, h⟩ := roundMagnitude_nearest i.natAbs Nat.one_pos hx
  rw [Nat.cast_one, div_one] at h
  have habs : |f64Value (f64OfInt i)| = i.natAbs :=
    (h.abs_value ((f64Magnitude_pack_roundMagnitude _ _ _).trans hm)).trans (h.eq_of_integer hi)
  rw [f64Value_eq_sign_mul_abs, habs, f64Sign_f64OfInt, Nat.cast_natAbs]
  rcases lt_or_ge i 0 with hneg | hnonneg
  · simp [hneg, abs_of_neg hneg]
  · simp [hnonneg, abs_of_nonneg hnonneg]

@[simp] theorem f64Sign_fmul (a b : F64) : f64Sign (fmul a b) = (f64Sign a != f64Sign b) := f64Sign_pack _ _

/-- The magnitude of a product is the rounded product of the magnitudes. -/
theorem fmul_nearest {a b : F64} (hx : |f64Value a * f64Value b| < 2 ^ (1023 : ℤ)) :
    ∃ k n, f64Magnitude (fmul a b) = k * 2 ^ 52 + n ∧ NearestUnits k n |f64Value a * f64Value b| := by
  have habs : |f64Value a * f64Value b| = ((f64Num a * f64Num b : ℕ) / (f64Den a * f64Den b : ℕ) : ℚ) := by
    rw [abs_mul, abs_f64Value, abs_f64Value, div_mul_div_comm]
    push_cast
    rfl
  rw [habs] at hx ⊢
  rw [fmul, f64Magnitude_pack_roundMagnitude]
  exact roundMagnitude_nearest _ (Nat.mul_pos (f64Den_pos a) (f64Den_pos b)) hx

/-- The rounded product has the exact product's sign. -/
theorem abs_fmul_sub (a b : F64) :
    |f64Value (fmul a b) - f64Value a * f64Value b| = |(|f64Value (fmul a b)| - |f64Value a * f64Value b|)| := by
  rw [f64Value_eq_sign_mul_abs (fmul a b), f64Value_eq_sign_mul_abs a, f64Value_eq_sign_mul_abs b, f64Sign_fmul]
  cases f64Sign a <;> cases f64Sign b <;> simp [abs_mul, neg_add_eq_sub, abs_sub_comm]

/-- A product below the overflow threshold is rounded once, to nearest, ties to even (R7). -/
theorem fmul_close {a b : F64} (hx : |f64Value a * f64Value b| < 2 ^ (1023 : ℤ)) :
    2 * |f64Value (fmul a b) - f64Value a * f64Value b| ≤ f64Ulp (fmul a b) ∧
      (2 * |f64Value (fmul a b) - f64Value a * f64Value b| = f64Ulp (fmul a b) →
        f64Significand (fmul a b) % 2 = 0) := by
  obtain ⟨k, n, hv, h⟩ := fmul_nearest hx
  rw [abs_fmul_sub]
  exact h.value_close hv

/-- A factor with the other sign and the same magnitude flips the sign bit of the product only. -/
theorem fmul_flip_left {a a' : F64} (hs : f64Sign a' = !f64Sign a) (hm : f64Magnitude a' = f64Magnitude a) (b : F64) :
    fmul a' b = fmul a b ^^^ 0x8000000000000000 := by
  obtain ⟨hnum, hden⟩ := f64Num_f64Den_congr hm
  rw [fmul, hs, hnum, hden, Bool.not_bne, f64Pack_not, fmul]

end Sys2Proof.Machine
end

section
/-! PROOFS. The family of spec/42_packet_parser.md: the scaled sample, the packet that the decode step runs, and the
Reading that each of the three parsers writes. -/

namespace Sys2Proof.Machine

/-! ### The scaled sample -/

/-- Settles O20: the quotients are evaluated. -/
theorem scaleConstantsHaveTheirBits : Obligations.ScaleConstantsHaveTheirBits := by
  unfold Obligations.ScaleConstantsHaveTheirBits
  decide

/-- The constants are positive, and neither large nor small (R120). -/
theorem scaleConst_bounds (a : Axis) :
    f64Sign (scaleConst a) = false ∧ 1 / 64 ≤ |f64Value (scaleConst a)| ∧ |f64Value (scaleConst a)| ≤ 1 := by
  have hlo : 1 * f64Den (scaleConst a) ≤ f64Num (scaleConst a) * 64 := by cases a <;> decide
  have hhi : f64Num (scaleConst a) ≤ f64Den (scaleConst a) := by cases a <;> decide
  have hden : (0 : ℚ) < f64Den (scaleConst a) := by exact_mod_cast f64Den_pos _
  rw [abs_f64Value, div_le_div_iff₀ (by norm_num) hden, div_le_one hden]
  exact ⟨by cases a <;> decide, by exact_mod_cast hlo, by exact_mod_cast hhi⟩

/-- Only the zero pattern reads as 0. -/
theorem toInt_ne_zero {r : Half} (hr : r ≠ 0) : r.toInt ≠ 0 := fun h => hr (BitVec.toInt_inj.1 h)

/-- A sample is in the range of 16 bits (R7). -/
theorem natAbs_toInt_le (r : Half) : r.toInt.natAbs ≤ 2 ^ 15 := by
  have hlo := r.le_toInt
  have hhi := r.toInt_lt
  omega

/-- A sample is converted exactly (R122). -/
theorem f64Value_sample (r : Half) : f64Value (f64OfInt r.toInt) = r.toInt :=
  f64Value_f64OfInt ((natAbs_toInt_le r).trans (by decide))

/-- The sign bit of a sample. -/
theorem f64Sign_sample (r : Half) : f64Sign (f64OfInt r.toInt) = r.getLsbD 15 := by
  rw [f64Sign_f64OfInt, ← BitVec.msb_eq_toInt, BitVec.msb_eq_getLsbD_last]

/-- No product of a sample and a constant overflows. -/
theorem sampleProduct_lt (a : Axis) (r : Half) :
    |f64Value (f64OfInt r.toInt) * f64Value (scaleConst a)| < 2 ^ (1023 : ℤ) := by
  obtain ⟨-, -, hconst⟩ := scaleConst_bounds a
  have hr : |(r.toInt : ℚ)| ≤ (2 ^ 15 : ℕ) := by
    rw [← Int.cast_abs, ← Nat.cast_natAbs]
    exact_mod_cast natAbs_toInt_le r
  rw [abs_mul, f64Value_sample]
  calc |(r.toInt : ℚ)| * |f64Value (scaleConst a)| ≤ (2 ^ 15 : ℕ) * 2 ^ (0 : ℤ) := by gcongr; exact hconst
    _ < 2 ^ (1023 : ℤ) := by rw [pow_mul_zpow]; exact zpow_lt_zpow_right₀ one_lt_two (by decide)

/-- No product of a sample other than 0 and a constant is below the normal numbers. -/
theorem le_sampleProduct (a : Axis) {r : Half} (hr : r ≠ 0) :
    2 ^ (-1020 : ℤ) ≤ |f64Value (f64OfInt r.toInt) * f64Value (scaleConst a)| := by
  obtain ⟨-, hconst, -⟩ := scaleConst_bounds a
  have hone : (1 : ℚ) ≤ |(r.toInt : ℚ)| := by exact_mod_cast Int.one_le_abs (toInt_ne_zero hr)
  rw [abs_mul, f64Value_sample]
  calc (2 : ℚ) ^ (-1020 : ℤ) ≤ 2 ^ (-6 : ℤ) := zpow_le_zpow_right₀ one_le_two (by decide)
    _ = 1 * (1 / 64) := by norm_num
    _ ≤ |(r.toInt : ℚ)| * |f64Value (scaleConst a)| := by gcongr

/-- The exponent field of a pattern. -/
theorem exponentField_toNat (v : F64) : (v.extractLsb' 52 11).toNat = f64Magnitude v / 2 ^ 52 := by
  rw [f64Magnitude, BitVec.extractLsb'_toNat, BitVec.extractLsb'_toNat, Nat.shiftRight_eq_div_pow, Nat.shiftRight_zero]
  omega

/-- Settles O22: the sample is exact, and its product with the constant, which does not overflow, is rounded once. -/
theorem scaleIsTheNearestProduct : Obligations.ScaleIsTheNearestProduct := by
  intro a r
  rw [← f64Value_sample]
  exact fmul_close (sampleProduct_lt a r)

/-- Settles O21: the exact product of any other sample than 0 is in the range of the normal numbers. -/
theorem scaleGivesNormalNumbers : Obligations.ScaleGivesNormalNumbers := by
  refine fun a r s => ⟨_, rfl, rfl, ?_, fun hr => ?_⟩
  · rintro rfl
    cases a <;> decide
  · obtain ⟨k, n, hv, h⟩ := fmul_nearest (sampleProduct_lt a r)
    obtain ⟨hpos, hlt⟩ := h.exponentField hv (le_sampleProduct a hr)
    obtain ⟨hsign, -⟩ := scaleConst_bounds a
    rw [exponentField_toNat]
    refine ⟨hpos, hlt, (f64Sign_fmul _ _).trans ?_⟩
    rw [hsign, f64Sign_sample, Bool.bne_false]

/-- Settles O23: the negated sample is converted to the other sign over the same magnitude. -/
theorem scaleIsOdd : Obligations.ScaleIsOdd := by
  intro a r hr hmin
  have hneg : (-r).toInt = -r.toInt := BitVec.toInt_neg_of_ne_intMin hmin
  have hzero := toInt_ne_zero hr
  refine fmul_flip_left ?_ ?_ _
  · rw [hneg, f64Sign_f64OfInt, f64Sign_f64OfInt, ← decide_not, decide_eq_decide]
    omega
  · rw [hneg, f64OfInt, f64OfInt, f64Magnitude_pack, f64Magnitude_pack, Int.natAbs_neg]

/-! ### The packet in the buffer -/

/-- A buffered packet that is an instruction of the variant runs (R158). -/
theorem runPacket_of_decode {v : Variant} {s : State} {i : Instr}
    (h : decode (.packet v) (bufferedPacket v s) = .instr i) : runPacket v s = exec i s := by
  simp only [runPacket, h]

/-- Settles O6: the decode rule is enabled, and it runs the packet that the buffer holds. -/
theorem stepRunsTheBufferedPacket : Obligations.StepRunsTheBufferedPacket := by
  intro s v i hk hv hop hfsm hb hd
  rw [step_block hk, blockTurn, enabledRule_enterTurn, enabledRule_decode hv hop hfsm hb]
  exact runPacket_of_decode (s := enterTurn s) hd

/-! ### The three parsers -/

/-- The decode step of a READ1: the Reading is written and emitted, and the operation has ended (R158). -/
theorem decodeStep_read1 (r : Reading) {s : State} (hop : s.op = .read1) :
    decodeStep r s = { s with
      rd := r, rdv := true, rdValid := true, fsm := .decoded, op := .none, outcome := .ok, done := true
      out := s.out ++ [r] } := by
  simp only [decodeStep, afterReading, emit, endOp, hop]

/-- The validity bit of a packet's fields: the sum of the header and of every field but the last, against the last. -/
theorem checksumOk_packetBody (header : List Byte) (count status : Half) (samples : List Triple) (checksum : Half) :
    checksumOk header (packetBody count status samples checksum) = true ↔
      (byteSum header + byteSum ((count :: status :: samples.flatMap tripleHalves).flatMap halfBytes)) % 65536
        = checksum.toNat := by
  have hsplit : packetBody count status samples checksum
      = (count :: status :: samples.flatMap tripleHalves).flatMap halfBytes
        ++ [checksum.extractLsb' 8 8, checksum.extractLsb' 0 8] := by
    simp [packetBody, halfBytes]
  have hfield : 256 * (checksum.extractLsb' 8 8).toNat + (checksum.extractLsb' 0 8).toNat = checksum.toNat := by
    rw [← be16_toNat, be16_bytes]
  rw [hsplit, checksumOk_append, hfield, beq_iff_eq]

/-- The validity bit of a packet (R125): its sum does not reach 65536, so nothing is lost (R94). -/
theorem checksumOk_packet (v : Variant) (count status : Half) {samples : List Triple} (checksum : Half)
    (hn : samples.length ≤ 4) :
    checksumOk (hdr v) (packetBody count status samples checksum) = true ↔
      byteSum (hdr v) + byteSum ((count :: status :: samples.flatMap tripleHalves).flatMap halfBytes)
        = checksum.toNat := by
  have hlength : (samples.flatMap tripleHalves).length = 3 * samples.length := by
    simp [List.length_flatMap, tripleHalves, mul_comm]
  have hheader : byteSum (hdr v) ≤ 213 := by cases v <;> decide
  have hfields := byteSum_le ((count :: status :: samples.flatMap tripleHalves).flatMap halfBytes)
  rw [flatMap_halfBytes_length, List.length_cons, List.length_cons, hlength] at hfields
  rw [checksumOk_packetBody, Nat.mod_eq_of_lt (by omega)]

/-- Settles O25: the decode step of a READ1 with the compact Reading. -/
theorem parseCompactWritesTheReading : Obligations.ParseCompactWritesTheReading := by
  intro count status x y z checksum s hop
  exact ⟨_, congrArg Host.Outcome.next (decodeStep_read1 _ hop),
    checksumOk_packet .compact count status checksum (samples := [⟨x, y, z⟩]) (by simp)⟩

/-- Settles O26: the decode step of a READ1 with the extended-torque Reading. -/
theorem parseExtendedWritesTheReading : Obligations.ParseExtendedWritesTheReading := by
  intro count status x y z tx ty tz checksum s hop
  exact ⟨_, congrArg Host.Outcome.next (decodeStep_read1 _ hop), rfl, rfl, rfl, rfl, rfl, rfl,
    checksumOk_packet .extended count status checksum (samples := [⟨x, y, z⟩, ⟨tx, ty, tz⟩]) (by simp)⟩

/-- Settles O27: the decode step of a READ1 with the multi-sensor Reading. -/
theorem parseMultiWritesTheReading : Obligations.ParseMultiWritesTheReading := by
  intro count status checksum f0 f1 f2 f3 s hop
  exact ⟨_, congrArg Host.Outcome.next (decodeStep_read1 _ hop), rfl, rfl, rfl, rfl, rfl, rfl,
    checksumOk_packet .multi count status checksum (samples := [f0, f1, f2, f3]) (by simp)⟩

end Sys2Proof.Machine
end

section
/-! PROOFS. The family of spec/43_config_encoder.md: the frame that CFGFRAME builds, the acceptance of a valid CFGENC, its
send and completion steps, and the run from the command to the end of the operation. -/

namespace Sys2Proof.Machine

/-! ### The frame -/

/-- The first seven bytes of a frame add 223 and the three codes (R92, R142). -/
theorem byteSum_of_cfgFrame_take (speed : Speed) (filter : Filter) (zero : Bool) :
    byteSum ((cfgFrame speed filter zero).take 7)
      = 223 + (speedCode speed).toNat + (filterCode filter).toNat + (zeroFlag zero).toNat :=
  byteSum_cfgPrefix _ _ _

/-- The nine bytes of a frame, the last two the quotient and the remainder by 256 of the sum before them (R142). -/
theorem exists_cfgFrame_eq (speed : Speed) (filter : Filter) (zero : Bool) :
    ∃ hi lo : Byte,
      cfgFrame speed filter zero
        = [0xAA, 0x00, 0x32, 0x03, speedCode speed, filterCode filter, zeroFlag zero, hi, lo] ∧
      hi.toNat = (223 + (speedCode speed).toNat + (filterCode filter).toNat + (zeroFlag zero).toNat) / 256 ∧
      lo.toNat = (223 + (speedCode speed).toNat + (filterCode filter).toNat + (zeroFlag zero).toNat) % 256 :=
  ⟨_, _, rfl, by rw [highByte_toNat, checksumOut_cfgPrefix_toNat], by rw [lowByte_toNat, checksumOut_cfgPrefix_toNat]⟩

/-- The greatest rate code is 100 (R68). -/
theorem speedCode_toNat_le (speed : Speed) : (speedCode speed).toNat ≤ 100 := by
  cases speed <;> decide

/-- The greatest filter code is 6 (R69). -/
theorem filterCode_toNat_le (filter : Filter) : (filterCode filter).toNat ≤ 6 := by
  cases filter <;> decide

/-- The two zero flags (R70). -/
theorem zeroFlag_toNat (zero : Bool) : (zeroFlag zero).toNat = 0 ∨ (zeroFlag zero).toNat = 255 := by
  cases zero <;> decide

/-- Settles O29: the codes are at most 100 and 6 and the flag is 0 or 255, so the high byte of the sum is at most 2, and
its low byte is no `AA`, which would take codes that add 203 or 204. -/
theorem configurationFrameProperty : Obligations.ConfigurationFrameProperty := by
  intro speed filter zero k s
  obtain ⟨hi, lo, hframe, hhi, hlo⟩ := exists_cfgFrame_eq speed filter zero
  have hspeed := speedCode_toNat_le speed
  have hfilter := filterCode_toNat_le filter
  have hzero := zeroFlag_toNat zero
  have hsum := byteSum_of_cfgFrame_take speed filter zero
  rw [byteSum, hframe] at hsum
  refine ⟨_, rfl, ?_⟩
  rw [hframe, hsum]
  refine ⟨rfl, rfl, ?_, ?_, rfl, ?_, ?_, ?_⟩
  · cases speed <;> rfl
  · cases filter <;> rfl
  · change hi.toNat * 256 + lo.toNat = _
    omega
  · change hi.toNat ≤ 2
    omega
  · simp only [List.drop_succ_cons, List.drop_zero, List.mem_cons, List.not_mem_nil, or_false, ← BitVec.toNat_inj,
      BitVec.reduceToNat]
    omega

/-! ### Acceptance -/

/-- The rates in the order of their selectors (R68). -/
theorem speedOfSel_eq (sel : BitVec 3) :
    speedOfSel sel = [Speed.stop, .hz1000, .hz333, .hz100, .hz30, .hz10][sel.toNat]? := by
  revert sel; decide

/-- The filters in the order of their selectors (R69). -/
theorem filterOfSel_eq (sel : BitVec 3) :
    filterOfSel sel = [Filter.off, .hz500, .hz150, .hz50, .hz15, .hz5, .hz1_5][sel.toNat]? := by
  revert sel; decide

/-- An admitted CFGENC with valid selectors is accepted (R143, R187). -/
theorem exec_cfgenc_valid {s : State} {speedSel filterSel : BitVec 3} {speed : Speed} {filter : Filter} (zero : Bool)
    (hop : s.op = .none) (hl : s.linkdown = false) (hv : s.variant ≠ none) (hs : speedOfSel speedSel = some speed)
    (hf : filterOfSel filterSel = some filter) :
    exec (.cfgenc speedSel filterSel zero) s = .next (acceptCfgenc (cfgFrame speed filter zero) s) := by
  have hadmitted : admitted s = true := (admitted_iff s).2 ⟨hop, hl, hv⟩
  have hframe : frameOf speedSel filterSel zero = some (cfgFrame speed filter zero) := by simp only [frameOf, hs, hf]
  simp only [exec, execCfgenc, hadmitted, if_true, hframe]

/-- Settles O30: the two lists are the selector tables. -/
theorem cfgencIsAccepted : Obligations.CfgencIsAccepted := by
  intro s speedSel filterSel zero speed filter hop hl hv hs hf
  exact exec_cfgenc_valid zero hop hl hv ((speedOfSel_eq speedSel).trans hs) ((filterOfSel_eq filterSel).trans hf)

/-! ### Sending -/

/-- A failure leaves `FSM` where it rests (R185). -/
theorem fsmAfterFailure_of_rests {f : Fsm} (h : f = .idle ∨ f = .decoded) : fsmAfterFailure f = f := by
  obtain rfl | rfl := h <;> rfl

section Send

variable {s : State} (hk : nextTurn s = .block) (hop : s.op = .cfgEnc)
include hk hop

/-- Before the ninth byte the block's turn is a send step (R144, R150). -/
theorem step_send (hx : s.txidx < 9) : step s = .next (sendStep (enterTurn s)) := by
  have hrule : enabledRule s = .send := by simp [enabledRule, hop, hx]
  rw [step_block hk, blockTurn, enabledRule_enterTurn, hrule]

/-- A send step of a working and ready transport pushes the byte at `TXIDX` and uses the readiness up (R144, R47). -/
theorem step_send_push {b : Byte} (hb : s.cfgout[s.txidx]? = some b) (hx : s.txidx < 9) (hf : s.tfail = false)
    (hr : s.txReady = true) :
    step s = .next { s with
      txq := s.txq ++ [b], txReady := false, txidx := s.txidx + 1, sched := s.sched.tail, done := false,
      rdValid := false } := by
  obtain ⟨-, -, hpush⟩ := ((sendStep_cases (enterTurn s)).resolve_left (by simp [hf])).resolve_left (by simp [hr])
  rw [step_send hk hop hx, hpush]
  simp [enterTurn_eq, hb]

/-- A send step waits for the transport to become ready (R144, R47). -/
theorem step_send_hold (hx : s.txidx < 9) (hf : s.tfail = false) (hr : s.txReady = false) :
    step s = .next { s with sched := s.sched.tail, done := false, rdValid := false } := by
  obtain ⟨-, -, hhold⟩ := ((sendStep_cases (enterTurn s)).resolve_left (by simp [hf])).resolve_right (by simp [hr])
  rw [step_send hk hop hx, hhold, enterTurn_eq]

/-- A send step that finds the transport failed ends the operation, and `FSM` stays at rest (R144, R185). -/
theorem step_send_failed (hx : s.txidx < 9) (hf : s.tfail = true) (hfsm : s.fsm = .idle ∨ s.fsm = .decoded) :
    step s = .next { s with
      outcome := .transportError, linkdown := true, op := .none, done := true, drainPh := .no, rdValid := false,
      sched := s.sched.tail } := by
  obtain ⟨-, hfailed⟩ := (sendStep_cases (enterTurn s)).resolve_right (by simp [hf])
  rw [step_send hk hop hx, hfailed, raiseTransportError, enterTurn_fsm, fsmAfterFailure_of_rests hfsm]
  rfl

/-- After the ninth byte the block's turn is the completion step (R145, R150). -/
theorem step_complete (hx : s.txidx = 9) :
    step s = .next { s with op := .none, outcome := .ok, done := true, sched := s.sched.tail, rdValid := false } := by
  have hrule : enabledRule s = .complete := by simp [enabledRule, hop, hx]
  rw [step_block hk, blockTurn, enabledRule_enterTurn, hrule]
  rfl

end Send

/-- Settles O32: the three send steps and the completion step. -/
theorem sendStepsPushTheFrameInOrder : Obligations.SendStepsPushTheFrameInOrder :=
  fun _ _ hk hop =>
    ⟨step_send_push hk hop, step_send_hold hk hop, step_send_failed hk hop, step_complete hk hop⟩

/-! ### The whole operation -/

/-- A run begins with its first step. -/
theorem run_of_step {s t : State} {k : Nat} {r : Host.Outcome State Fault Refusal} (hs : step s = .next t)
    (hr : Host.Core.run Sys2Proof.core k t = r) : Host.Core.run Sys2Proof.core (k + 1) s = r := by
  have hfirst : Sys2Proof.core.step s = .next t := hs
  simp only [Host.Core.run, hfirst]
  exact hr

/-- The transport becomes ready and takes the next byte of the frame (R58, R144). -/
theorem run_of_accept_send {s : State} {b : Byte} {q : List Turn} {k : Nat} {r : Host.Outcome State Fault Refusal}
    (hq : s.sched = .accept :: .block :: q) (hop : s.op = .cfgEnc) (hb : s.cfgout[s.txidx]? = some b)
    (hx : s.txidx < 9) (hf : s.tfail = false)
    (hr : Host.Core.run Sys2Proof.core k { s with
      txq := s.txq ++ [b], txReady := false, txidx := s.txidx + 1, sched := q, done := false, rdValid := false } = r) :
    Host.Core.run Sys2Proof.core (k + 2) s = r := by
  obtain ⟨-, -, hready, -⟩ := linkdownIsStickyAndTransportBitsMoveAsListed
  have haccept := hready s (nextTurn_of_sched hq)
  rw [hq] at haccept
  have hpush := step_send_push (s := { s with txReady := true, sched := .block :: q, done := false, rdValid := false })
    rfl hop hb hx hf rfl
  exact run_of_step haccept (run_of_step hpush hr)

/-- The bytes of the frame that are left are pushed, one for each readiness, and the operation ends (R144, R145). The
transport is ready after it only if it was before and no byte was left. -/
theorem run_send_rest (bs : List Byte) {s : State} {q : List Turn} (hop : s.op = .cfgEnc) (hf : s.tfail = false)
    (hleft : s.cfgout.drop s.txidx = bs) (hx : s.txidx + bs.length = 9)
    (hq : s.sched = (List.replicate bs.length [Turn.accept, Turn.block]).flatten ++ Turn.block :: q) :
    Host.Core.run Sys2Proof.core (2 * bs.length + 1) s = .next { s with
      txq := s.txq ++ bs, txidx := 9, txReady := bs.isEmpty && s.txReady, op := .none, outcome := .ok, done := true,
      rdValid := false, sched := q } := by
  induction bs generalizing s with
  | nil =>
    refine run_of_step (step_complete (nextTurn_of_sched hq) hop hx) ?_
    simp [Host.Core.run, hq, ← hx]
  | cons b bs ih =>
    have hb : s.cfgout[s.txidx]? = some b := by rw [← List.head?_drop, hleft, List.head?_cons]
    have hrest : s.cfgout.drop (s.txidx + 1) = bs := by rw [← List.tail_drop, hleft, List.tail_cons]
    rw [List.length_cons] at hx
    refine run_of_accept_send hq hop hb (by omega) hf (Eq.trans (ih hop hf hrest ?_ rfl) ?_)
    · simp only
      omega
    · simp

/-- Settles O33: the acceptance step, and the run that sends the nine bytes. -/
theorem cfgencSendsTheWholeFrame : Obligations.CfgencSendsTheWholeFrame := by
  intro s speedSel filterSel zero speed filter q hop hl hv hf hspeed hfilter hq
  have hdecode := decodeOfEncodeIsTheInstruction (.cfgenc speedSel filterSel zero) rfl
  have haccept := (stepRunsThePresentedInstruction s _ _ _ hq hdecode).trans
    (exec_cfgenc_valid zero hop hl hv hspeed hfilter)
  have hsend := run_send_rest (cfgFrame speed filter zero) (q := q) (s := acceptCfgenc (cfgFrame speed filter zero)
    { s with sched := _, done := false, rdValid := false }) rfl hf rfl rfl rfl
  refine (run_of_step haccept hsend).trans ?_
  rw [← hop]
  rfl

end Sys2Proof.Machine
end

section
/-! PROOFS. The family of spec/44_frame_reader.md, step by step: the acceptance of READ1 and READALL, the loop test, the
drain, one byte of the search and of the body, the decode step, and what moves `FSM` and `DRAINPH`. -/

namespace Sys2Proof.Machine

/-! ### Acceptance -/

section Acceptance

variable {s : State} (hop : s.op = .none) (hl : s.linkdown = false) (hv : s.variant ≠ none)
include hop hl hv

/-- An admitted READ1 is accepted (R151, R187). -/
theorem exec_read1_admitted (d : Bool) : exec (.read1 d) s = .next (acceptRead1 d s) := by
  simp only [exec, execRead1, (admitted_iff s).2 ⟨hop, hl, hv⟩, if_true]

/-- An admitted READALL is accepted (R160, R187). -/
theorem exec_readall_admitted : exec .readall s = .next (acceptReadall s) := by
  simp only [exec, execReadall, (admitted_iff s).2 ⟨hop, hl, hv⟩, if_true]

end Acceptance

/-- Settles O38: the command is admitted. -/
theorem read1IsAccepted : Obligations.Read1IsAccepted :=
  fun _ d hop hl hv => exec_read1_admitted hop hl hv d

/-! ### The loop test -/

section LoopTest

variable {s : State} {v : Variant} (hk : nextTurn s = .block) (hv : s.variant = some v) (hop : s.op = .readAll)
  (hfsm : s.fsm = .idle ∨ s.fsm = .decoded)
include hk hv hop hfsm

/-- In a READALL at rest the block's turn is the loop test (R150, R160). -/
theorem step_loopTest : step s = .next (loopTestStep v (enterTurn s)) := by
  have hrule : enabledRule s = .loopTest v := by
    obtain hfsm | hfsm := hfsm <;> simp [enabledRule_of_read hv (.inr hop), enabledRead, hfsm, hop]
  rw [step_block hk, blockTurn, enabledRule_enterTurn, hrule]

/-- With a packet's worth of bytes the loop goes on (R160). -/
theorem step_loopTest_on (hq : total v ≤ s.rxq.length) :
    step s = .next { enterTurn s with fsm := .synchronizing, midx := 0 } := by
  rw [step_loopTest hk hv hop hfsm]
  exact congrArg _ (if_pos hq)

/-- With fewer bytes READALL ends (R160). -/
theorem step_loopTest_end (hq : s.rxq.length < total v) : step s = .next (endOp .ok (enterTurn s)) := by
  rw [step_loopTest hk hv hop hfsm]
  exact congrArg _ (if_neg (Nat.not_le.2 hq))

end LoopTest

/-- Settles O39: the command is admitted, and the loop test has its two answers. -/
theorem readallIsAcceptedAndTested : Obligations.ReadallIsAcceptedAndTested := by
  intro s v hv
  refine ⟨fun hop hl => exec_readall_admitted hop hl (by simp [hv]), fun hk hop hfsm => ⟨?_, ?_⟩⟩
  · exact step_loopTest_on hk hv hop hfsm
  · exact step_loopTest_end hk hv hop hfsm

/-! ### The drain -/

/-- In a READ1 at its drain check the block's turn is that check (R150, R153). -/
theorem step_drainCheck {s : State} {v : Variant} (hk : nextTurn s = .block) (hv : s.variant = some v)
    (hop : s.op = .read1) (hfsm : s.fsm = .synchronizing) (hph : s.drainPh = .check) :
    step s = .next { enterTurn s with drainPh := if total v < s.rxq.length then .flush else .no } := by
  have hrule : enabledRule s = .drainCheck v := by
    simp [enabledRule_of_read hv (.inl hop), enabledRead, hfsm, hph, hop]
  rw [step_block hk, blockTurn, enabledRule_enterTurn, hrule]
  rfl

section DrainFlush

variable {s : State} {v : Variant} (hk : nextTurn s = .block) (hv : s.variant = some v)
  (hop : s.op = .read1 ∨ s.op = .readAll) (hfsm : s.fsm = .synchronizing) (hph : s.drainPh = .flush)
include hk hv hop hfsm hph

/-- At the flush the block's turn is that flush (R150, R154). -/
theorem step_drainFlush : step s = .next (drainFlushStep (enterTurn s)) := by
  rw [step_block hk, blockTurn, enabledRule_enterTurn, enabledRule_drainFlush hv hop hfsm hph]

/-- An exact flush empties the queue (R46, R154). -/
theorem step_drainFlush_exact (hf : s.tfail = false) (hkeep : s.flushKeep = 0) :
    step s = .next { enterTurn s with drainPh := .no, rxq := [], cur := s.cur + s.rxq.length } := by
  obtain ⟨-, e⟩ := (drainFlushStep_cases (enterTurn s)).resolve_left (by simp [hf])
  rw [step_drainFlush hk hv hop hfsm hph, e]
  simp [hkeep]

/-- A failed flush ends the drain and nothing else (R46, R154). -/
theorem step_drainFlush_failed (hf : s.tfail = true) : step s = .next { enterTurn s with drainPh := .no } := by
  obtain ⟨-, e⟩ := (drainFlushStep_cases (enterTurn s)).resolve_right (by simp [hf])
  rw [step_drainFlush hk hv hop hfsm hph, e]

end DrainFlush

/-- `DRAINPH` ends at `No`, goes from `Check` to `Flush` at a check of more than one packet, and comes to `Check` at the
acceptance of a READ1 that drains (R151, R153, R154). -/
theorem Move.drainPh_cases {k : Turn} {u t : State} (hm : Move k u t) :
    t.drainPh = u.drainPh ∨ t.drainPh = .no ∨
    (u.drainPh = .check ∧ t.drainPh = .flush ∧ k = .block ∧ u.op = .read1 ∧ u.fsm = .synchronizing ∧
      ∃ v, u.variant = some v ∧ total v < u.rxq.length) ∨
    (t.drainPh = .check ∧ u.op = .none ∧ t.op = .read1 ∧
      ∃ r, k = .host r ∧ decode (.port r.port) r.bytes = .instr (.read1 true)) := by
  cases hm with
  | drainCheck v hk hv hop hfsm hph =>
    by_cases hq : total v < u.rxq.length
    · exact .inr (.inr (.inl ⟨hph, if_pos hq, hk, hop, hfsm, v, hv, hq⟩))
    · exact .inr (.inl (if_neg hq))
  | read1 r d hk _ hd hop =>
    cases d with
    | false => exact .inr (.inl rfl)
    | true => exact .inr (.inr (.inr ⟨rfl, hop, rfl, r, hk, hd⟩))
  | drainFailed | drainFlush | popFailed | sendFailed | readall | reset => exact .inr (.inl rfl)
  | _ => exact .inl rfl

/-- Settles O40: the check and the flush step by step, and what a move can do to `DRAINPH`. -/
theorem drainChecksThenFlushesOnce : Obligations.DrainChecksThenFlushesOnce := by
  refine ⟨fun s v hk hv hop hfsm => ⟨fun hph hq => ?_, fun hph hq => ?_, fun hph hf hkeep => ?_, fun hph hf => ?_⟩,
    fun s t h hne => (step_move h).drainPh_cases.resolve_left hne⟩
  · rw [step_drainCheck hk hv hop hfsm hph, if_neg (Nat.not_lt.2 hq), enterTurn_eq]
  · rw [step_drainCheck hk hv hop hfsm hph, if_pos hq, enterTurn_eq]
  · exact step_drainFlush_exact hk hv (.inl hop) hfsm hph hf hkeep
  · exact step_drainFlush_failed hk hv (.inl hop) hfsm hph hf

/-! ### One byte of the search -/

/-- The first header byte is `AA` (R60). -/
theorem hdr_head (v : Variant) : (hdr v)[0]? = some 0xAA := by
  cases v <;> rfl

/-- The expected byte moves the match on (R155). -/
theorem matchNext_hit {h : List Byte} {m : Nat} {b : Byte} (hb : h[m]? = some b) : matchNext h m b = m + 1 :=
  if_pos hb

/-- Another byte starts the match again if it is `AA` (R155). -/
theorem matchNext_miss {v : Variant} {m : Nat} {b : Byte} (hb : (hdr v)[m]? ≠ some b) :
    matchNext (hdr v) m b = if b = 0xAA then 1 else 0 := by
  rw [matchNext, if_neg hb, hdr_head]
  simp [eq_comm]

/-- A search step takes the byte at the head of the queue and moves the match (R155). -/
theorem step_search_byte {s : State} {v : Variant} {b : Byte} {q : List Byte} (hk : nextTurn s = .block)
    (hv : s.variant = some v) (hop : s.op = .read1 ∨ s.op = .readAll) (hfsm : s.fsm = .synchronizing)
    (hph : s.drainPh = .no) (hf : s.tfail = false) (hq : s.rxq = b :: q) :
    step s = .next (searchMove (matchNext (hdr v) s.midx b) { enterTurn s with rxq := q, cur := s.cur + 1 }) := by
  have hpop : rxPop (enterTurn s) = .byte b { enterTurn s with rxq := q, cur := s.cur + 1 } := rxPop_byte hf hq
  rw [step_block hk, blockTurn, enabledRule_enterTurn, enabledRule_search hv hop hfsm hph]
  simp only [searchStep, hpop, enterTurn_midx]

/-- Settles O42: the byte is taken, and each branch gives its `MIDX`. -/
theorem searchStepMatchesOneByte : Obligations.SearchStepMatchesOneByte := by
  intro s v b q hk hv hop hfsm hph hf hq _
  rw [step_search_byte hk hv hop hfsm hph hf hq]
  refine ⟨fun hb hm => ?_, fun hb hm => ?_, fun hb hAA => ?_, fun hb hAA => ?_⟩
  · rw [matchNext_hit hb, searchMove, if_neg (by omega), enterTurn_eq]
  · rw [matchNext_hit hb, searchMove, if_pos (by omega), enterTurn_eq, hm]
  · rw [matchNext_miss hb, if_pos hAA, searchMove, if_neg (by decide), enterTurn_eq]
  · rw [matchNext_miss hb, if_neg hAA, searchMove, if_neg (by decide), enterTurn_eq]

/-! ### One byte of the body -/

/-- A body step stores the byte at the head of the queue (R157). -/
theorem step_body_byte {s : State} {v : Variant} {b : Byte} {q : List Byte} (hk : nextTurn s = .block)
    (hv : s.variant = some v) (hop : s.op = .read1 ∨ s.op = .readAll) (hfsm : s.fsm = .bodyPending)
    (hb : s.bidx < blen v) (hf : s.tfail = false) (hq : s.rxq = b :: q) :
    step s = .next { enterTurn s with
      rxq := q, cur := s.cur + 1, pbuf := s.pbuf.set s.bidx b, bidx := s.bidx + 1 } := by
  have hpop : rxPop (enterTurn s) = .byte b { enterTurn s with rxq := q, cur := s.cur + 1 } := rxPop_byte hf hq
  rw [step_block hk, blockTurn, enabledRule_enterTurn, enabledRule_body hv hop hfsm hb]
  simp only [bodyStep, hpop, enterTurn_pbuf, enterTurn_bidx]

/-- An operation that is collecting a body is a read (R12, R150). -/
theorem State.Inv.read_of_bodyPending {s : State} (h : s.Inv) (hfsm : s.fsm = .bodyPending) :
    s.op = .read1 ∨ s.op = .readAll := by
  have hrest := h.resting
  cases hop : s.op <;> simp [hfsm, hop] at hrest ⊢

/-- Settles O43: the buffer has 30 bytes, and `BIDX` is below its length. -/
theorem bodyStepStoresOneByte : Obligations.BodyStepStoresOneByte := by
  intro s v b q h hk hv hfsm _ hb hf hq
  have hlt : s.bidx < s.pbuf.length := by
    have := blen_le v
    have := h.pbufSize
    omega
  refine ⟨_, step_body_byte hk hv (h.read_of_bodyPending hfsm) hfsm hb hf hq, by simp [h.pbufSize], ?_, fun j hj => ?_⟩
  · exact List.getElem?_set_self hlt
  · exact List.getElem?_set_ne hj.symm

/-! ### The decode step -/

/-- Only a body of the variant's length has a Reading (R129). -/
theorem length_of_parse {v : Variant} {body : List Byte} {r : Reading} (h : parse v body = some r) :
    body.length = blen v := by
  unfold parse at h
  split at h
  · assumption
  · cases h

/-- The decode step of a READALL: the Reading is written and emitted, and the operation goes on (R158). -/
theorem decodeStep_readAll (r : Reading) {s : State} (hop : s.op = .readAll) :
    decodeStep r s = { s with rd := r, rdv := true, rdValid := true, out := s.out ++ [r], fsm := .decoded } := by
  simp only [decodeStep, afterReading, emit, hop]

/-- With the body complete the block's turn is the decode step, with `PARSE` of the body (R150, R158). -/
theorem step_decode {s : State} {v : Variant} {r : Reading} (hk : nextTurn s = .block) (hv : s.variant = some v)
    (hop : s.op = .read1 ∨ s.op = .readAll) (hfsm : s.fsm = .bodyPending) (hb : s.bidx = blen v)
    (hr : parse v (s.pbuf.take (blen v)) = some r) : step s = .next (decodeStep r (enterTurn s)) := by
  obtain ⟨i, r', hd, hr', hexec⟩ := exec_body (length_of_parse hr)
  obtain rfl : r = r' := Option.some.inj (hr.symm.trans hr')
  rw [stepRunsTheBufferedPacket s v i hk hv hop hfsm hb hd, ← enterTurn_eq, hexec]

/-- The buffer holds a body of any variant (R16, R17). -/
theorem State.Inv.buffered_length {s : State} (h : s.Inv) (v : Variant) : (s.pbuf.take (blen v)).length = blen v := by
  rw [List.length_take, h.pbufSize, min_eq_left (blen_le v)]

/-- Settles O24: the buffer holds a whole body, so it has a Reading, which the decode step writes. -/
theorem decodeStepWritesParseOfTheBuffer : Obligations.DecodeStepWritesParseOfTheBuffer := by
  intro s v h hk hv hfsm hb
  obtain ⟨-, r, -, hr, -⟩ := exec_body (h.buffered_length v)
  have hstep := step_decode hk hv (h.read_of_bodyPending hfsm) hfsm hb hr
  refine ⟨r, hr, fun hop => ?_, fun hop => ?_⟩
  · rw [hstep, decodeStep_read1 r (s := enterTurn s) hop, enterTurn_eq]
  · rw [hstep, decodeStep_readAll r (s := enterTurn s) hop, enterTurn_eq]

/-- Settles O28: a parser does the decode step with `PARSE` of its body. -/
theorem parseInsideReadallGoesOn : Obligations.ParseInsideReadallGoesOn := by
  intro i v s hi hop
  obtain ⟨r, hr, hexec⟩ := exec_packet_parse hi
  exact ⟨r, hr, (hexec s).trans (congrArg _ (decodeStep_readAll r hop))⟩

/-! ### Every step has an answer -/

/-- What a port decodes runs: CSUM.IN and CSUM.VALID are decoded with a body of two bytes or more (R90). -/
theorem exists_next_of_decode_port {p : Port} {bs : List Byte} {i : Instr} (hd : decode (.port p) bs = .instr i)
    (s : State) : ∃ t, exec i s = .next t := by
  have hslot := decode_port_slot hd
  cases p with
  | cmd =>
    obtain ⟨-, ⟨_, _, _, e⟩ | e | ⟨_, -, e⟩ | e⟩ | ⟨-, e⟩ := exec_cmd hslot s
    all_goals exact ⟨_, e⟩
  | csumIn =>
    obtain ⟨_, _, -, hl, rfl⟩ := decodeCsum_eq hd
    exact ⟨_, if_pos hl⟩
  | csumValid =>
    obtain ⟨_, _, -, hl, rfl⟩ := decodeCsum_eq hd
    exact ⟨_, if_pos hl⟩
  | _ =>
    cases i <;> cases hslot
    exact ⟨_, rfl⟩

/-- Two bytes on the command port are a command or a reserved word (R72, R74). -/
theorem decode_cmd_two_bytes {bs : List Byte} (hl : bs.length = 2) :
    (∃ i, decode (.port .cmd) bs = .instr i) ∨ decode (.port .cmd) bs = .rejected .reservedOpcode := by
  obtain ⟨a, b, rfl⟩ := List.length_eq_two.1 hl
  change (∃ i, decodeCommand (be16 a b) = .instr i) ∨ decodeCommand (be16 a b) = .rejected .reservedOpcode
  unfold decodeCommand
  split
  case h_4 => exact .inr rfl
  all_goals exact .inl ⟨_, rfl⟩

/-- A request that decodes, or is a command word, has a next state (R187). -/
theorem exists_next_of_present {r : Request}
    (h : (r.port = .cmd ∧ r.bytes.length = 2) ∨ ∃ i, decode (.port r.port) r.bytes = .instr i) (s : State) :
    ∃ t, present r s = .next t := by
  have hcases : (∃ i, decode (.port r.port) r.bytes = .instr i) ∨
      (r.port = .cmd ∧ decode (.port r.port) r.bytes = .rejected .reservedOpcode) := by
    obtain ⟨hp, hl⟩ | hi := h
    · rw [hp]
      exact (decode_cmd_two_bytes hl).imp_right fun e => ⟨rfl, e⟩
    · exact .inl hi
  obtain ⟨i, hd⟩ | ⟨hp, hd⟩ := hcases
  · rw [present_of_decode hd]
    exact exists_next_of_decode_port hd s
  · simp only [present, hd]
    exact ⟨_, if_pos ⟨hp, rfl⟩⟩

/-- Under the invariant the block's turn has a next state: the decode step finds a whole body (R150, R158). -/
theorem State.Inv.exists_next_of_blockTurn {s : State} (h : s.Inv) : ∃ t, blockTurn s = .next t := by
  unfold blockTurn
  cases enabledRule s with
  | decode v =>
    obtain ⟨i, r, hd, -, hexec⟩ := exec_body (h.buffered_length v)
    exact ⟨_, (runPacket_of_decode hd).trans (hexec s)⟩
  | _ => exact ⟨_, rfl⟩

/-- Settles O51: turn by turn; only a request and the decode step decode bytes. -/
theorem stepsAlwaysAnswer : Obligations.StepsAlwaysAnswer := by
  intro s h hreq
  rw [step_takeTurn]
  cases hk : nextTurn s with
  | block => exact h.enter.exists_next_of_blockTurn
  | host r => exact exists_next_of_present (hreq r hk) _
  | _ => exact ⟨_, rfl⟩

/-! ### The transitions of `FSM` -/

/-- What a move can do to `FSM` between resets (R150). -/
theorem Move.fsm_cases {k : Turn} {u t : State} (hm : Move k u t) (h : u.Inv)
    (hk : ∀ strap reopened, k ≠ .reset strap reopened) :
    t.fsm = u.fsm ∨
    ((u.fsm = .idle ∨ u.fsm = .decoded) ∧ t.fsm = .synchronizing ∧ t.midx = 0 ∧ (t.op = .read1 ∨ t.op = .readAll)) ∨
    (u.fsm = .synchronizing ∧ t.fsm = .bodyPending ∧ t.midx = 4 ∧ t.bidx = 0) ∨
    (u.fsm = .bodyPending ∧ t.fsm = .decoded ∧ ∃ v, u.variant = some v ∧ u.bidx = blen v) ∨
    ((u.fsm = .synchronizing ∨ u.fsm = .bodyPending) ∧ t.fsm = .idle ∧ t.outcome = .transportError) := by
  cases hm with
  | read1 _ _ _ _ _ hop => exact .inr (.inl ⟨h.resting (.inl hop), rfl, rfl, .inl rfl⟩)
  | loopOn _ _ _ hop hfsm => exact .inr (.inl ⟨hfsm, rfl, rfl, .inr hop⟩)
  | searchHit _ _ _ _ _ _ hfsm => exact .inr (.inr (.inl ⟨hfsm, rfl, rfl, rfl⟩))
  | decodeRead1 v _ _ hv _ hfsm hb => exact .inr (.inr (.inr (.inl ⟨hfsm, rfl, v, hv, hb⟩)))
  | decodeReadall v _ _ hv _ hfsm hb => exact .inr (.inr (.inr (.inl ⟨hfsm, rfl, v, hv, hb⟩)))
  | popFailed _ _ _ _ hfsm => exact .inr (.inr (.inr (.inr ⟨hfsm.imp And.left And.left, rfl, rfl⟩)))
  | sendFailed _ hop => exact .inl (fsmAfterFailure_of_rests (h.resting (.inr hop)))
  | reset strap reopened e => exact absurd e (hk strap reopened)
  | _ => exact .inl rfl

/-- Settles O54: a step is a move in the entered state. -/
theorem fsmMovesOnlyAsListed : Obligations.FsmMovesOnlyAsListed :=
  fun _ _ h hs hk hne => ((step_move hs).fsm_cases h.enter hk).resolve_left hne

end Sys2Proof.Machine
end

section
/-! PROOFS. The family of spec/44_frame_reader.md, whole reads: the byte-by-byte search is `read_until`, a read takes one
packet, READ1 is one read and READALL one for each packet's worth of bytes. -/

namespace Sys2Proof.Machine

/-! ### Runs -/

/-- `k` steps lead from `s` to `t`. -/
def RunsTo (k : Nat) (s t : State) : Prop := Host.Core.run Sys2Proof.core k s = .next t

/-- No steps leave the state as it is. -/
theorem RunsTo.zero (s : State) : RunsTo 0 s s := rfl

/-- A run begins with its first step. -/
theorem RunsTo.cons {k : Nat} {s t u : State} (hs : step s = .next t) (h : RunsTo k t u) : RunsTo (k + 1) s u :=
  run_of_step hs h

/-- A run goes on where a shorter one has led. -/
theorem RunsTo.trans {j k : Nat} {s t u : State} (h : RunsTo j s t) (h' : RunsTo k t u) : RunsTo (j + k) s u := by
  induction j generalizing s with
  | zero =>
    cases h
    rwa [Nat.zero_add]
  | succ j ih =>
    rw [Nat.add_right_comm]
    simp only [RunsTo, Host.Core.run] at h
    split at h
    case h_1 first hfirst => exact .cons hfirst (ih h)
    all_goals cases h

/-- A read in progress on a working transport, with no turn scheduled and no strobe up: the state between the steps of a
run in which only the block moves. -/
structure State.ReadsAlone (v : Variant) (s : State) : Prop where
  variant : s.variant = some v
  op : s.op = .read1 ∨ s.op = .readAll
  tfail : s.tfail = false
  sched : s.sched = []
  done : s.done = false
  rdValid : s.rdValid = false

/-- The next turn is the block's. -/
theorem State.ReadsAlone.nextTurn_eq {v : Variant} {s : State} (h : s.ReadsAlone v) : nextTurn s = .block := by
  simp [nextTurn, h.sched]

/-- Entering a turn changes nothing. -/
theorem State.ReadsAlone.enterTurn_eq_self {v : Variant} {s : State} (h : s.ReadsAlone v) : enterTurn s = s := by
  obtain ⟨-, -, -, hsched, hdone, hvalid⟩ := h
  cases s
  simp_all [enterTurn_eq]

/-! ### `read_until` -/

/-- Behind the pattern itself nothing is skipped (R45). -/
theorem readUntil_append (p rest : List Byte) : readUntil p (p ++ rest) = some rest := by
  cases h : p ++ rest with
  | nil =>
    obtain ⟨rfl, rfl⟩ := List.append_eq_nil_iff.1 h
    rfl
  | cons b bs =>
    simp only [readUntil, ← h, afterPrefix_append]

/-- A byte at which the pattern does not begin is skipped (R45). -/
theorem readUntil_cons {p bs : List Byte} {b : Byte} (h : afterPrefix p (b :: bs) = none) :
    readUntil p (b :: bs) = readUntil p bs := by
  simp only [readUntil, h]

/-- What `read_until` leaves follows an occurrence of the pattern (R45). -/
theorem eq_append_of_readUntil {p bs rest : List Byte} (h : readUntil p bs = some rest) :
    ∃ before, bs = before ++ p ++ rest := by
  induction bs with
  | nil => exact ⟨[], afterPrefix_eq_some.1 h⟩
  | cons b bs ih =>
    unfold readUntil at h
    split at h
    · rename_i hp
      cases h
      exact ⟨[], afterPrefix_eq_some.1 hp⟩
    · obtain ⟨before, rfl⟩ := ih h
      exact ⟨b :: before, rfl⟩

/-- A pattern does not begin where one of its bytes differs. -/
theorem afterPrefix_eq_none {p bs : List Byte} {m : Nat} (hm : m < p.length) (h : p[m]? ≠ bs[m]?) :
    afterPrefix p bs = none := by
  rw [Option.eq_none_iff_forall_ne_some]
  intro rest e
  rw [afterPrefix_eq_some.1 e, List.getElem?_append_left hm] at h
  exact h rfl

/-- A byte other than `AA` begins no header (R60). -/
theorem readUntil_cons_of_ne {v : Variant} {b : Byte} (hb : b ≠ 0xAA) (bs : List Byte) :
    readUntil (hdr v) (b :: bs) = readUntil (hdr v) bs := by
  refine readUntil_cons (afterPrefix_eq_none (m := 0) (by simp) ?_)
  rw [hdr_head]
  simpa using hb.symm

/-- Bytes other than `AA` are skipped (R60). -/
theorem readUntil_append_of_not_mem {v : Variant} {skipped : List Byte} (h : 0xAA ∉ skipped) (bs : List Byte) :
    readUntil (hdr v) (skipped ++ bs) = readUntil (hdr v) bs := by
  induction skipped with
  | nil => rfl
  | cons b skipped ih =>
    rw [List.mem_cons, not_or] at h
    obtain ⟨hb, hrest⟩ := h
    rw [List.cons_append, readUntil_cons_of_ne (Ne.symm hb), ih hrest]

/-- The first header byte does not recur in the header (R156). -/
theorem not_mem_hdr_tail (v : Variant) : 0xAA ∉ (hdr v).tail := by
  cases v <;> decide

/-- A match that fails is dropped whole: no header begins inside it (R156). -/
theorem readUntil_of_miss {v : Variant} {m : Nat} {b : Byte} (hm : m < 4) (hb : (hdr v)[m]? ≠ some b)
    (q : List Byte) : readUntil (hdr v) ((hdr v).take m ++ b :: q) = readUntil (hdr v) (b :: q) := by
  have hlen : ((hdr v).take m).length = m := List.length_take_of_le (by rw [hdr_length]; exact hm.le)
  have hnone : afterPrefix (hdr v) ((hdr v).take m ++ b :: q) = none := by
    refine afterPrefix_eq_none (m := m) (by rwa [hdr_length]) ?_
    rwa [List.getElem?_append_right hlen.le, hlen, Nat.sub_self, List.getElem?_cons_zero]
  cases m with
  | zero => rfl
  | succ m =>
    have htake : (hdr v).take (m + 1) = 0xAA :: (hdr v).tail.take m := by cases v <;> rfl
    rw [htake, List.cons_append] at hnone ⊢
    rw [readUntil_cons hnone]
    exact readUntil_append_of_not_mem (fun hmem => not_mem_hdr_tail v (List.mem_of_mem_take hmem)) _

/-- The match with its next byte is the match moved on: `MIDX` is how much of a header the search has seen (R155,
R156). -/
theorem readUntil_matchNext {v : Variant} {m : Nat} (hm : m < 4) (b : Byte) (q : List Byte) :
    readUntil (hdr v) ((hdr v).take m ++ b :: q) = readUntil (hdr v) ((hdr v).take (matchNext (hdr v) m b) ++ q) := by
  by_cases hb : (hdr v)[m]? = some b
  · rw [matchNext_hit hb, List.take_add_one, hb, List.append_assoc]
    rfl
  · rw [matchNext_miss hb, readUntil_of_miss hm hb]
    split
    case isTrue hAA =>
      subst hAA
      cases v <;> rfl
    case isFalse hAA => exact readUntil_cons_of_ne hAA q

/-- A header that is not complete yet needs one more byte at least. -/
theorem length_lt_of_readUntil {v : Variant} {m : Nat} {q rest : List Byte} (hm : m < 4)
    (h : readUntil (hdr v) ((hdr v).take m ++ q) = some rest) : rest.length < q.length := by
  obtain ⟨before, e⟩ := eq_append_of_readUntil h
  have hlen := congrArg List.length e
  simp only [List.length_append, List.length_take, hdr_length] at hlen
  omega

/-! ### The search -/

/-- A read alone on its transport, at a search step (R155). -/
structure State.Searches (v : Variant) (s : State) : Prop extends s.ReadsAlone v where
  fsm : s.fsm = .synchronizing
  drainPh : s.drainPh = .no
  midx : s.midx < 4

section Search

variable {v : Variant} {s : State} (h : s.Searches v) {b : Byte} {q : List Byte}
include h

/-- The search step that completes the header (R155). -/
theorem State.Searches.step_hit (hq : s.rxq = b :: q) (hm : matchNext (hdr v) s.midx b = 4) :
    step s = .next { s with rxq := q, cur := s.cur + 1, midx := 4, fsm := .bodyPending, bidx := 0 } := by
  rw [step_search_byte h.nextTurn_eq h.variant h.op h.fsm h.drainPh h.tfail hq, h.enterTurn_eq_self, hm]
  rfl

/-- A search step that does not (R155). -/
theorem State.Searches.step_on (hq : s.rxq = b :: q) (hm : matchNext (hdr v) s.midx b ≠ 4) :
    step s = .next { s with rxq := q, cur := s.cur + 1, midx := matchNext (hdr v) s.midx b } := by
  rw [step_search_byte h.nextTurn_eq h.variant h.op h.fsm h.drainPh h.tfail hq, h.enterTurn_eq_self, searchMove,
    if_neg hm]

/-- After such a step the search goes on. -/
theorem State.Searches.next (hm : matchNext (hdr v) s.midx b ≠ 4) :
    State.Searches v { s with rxq := q, cur := s.cur + 1, midx := matchNext (hdr v) s.midx b } :=
  have hle := matchNext_le (hdr v) s.midx b
  have hlt := h.midx
  { h with midx := show matchNext (hdr v) s.midx b < 4 by omega }

end Search

/-- A match of four bytes is the header, and the search is over (R155). -/
theorem readUntil_of_full_match (v : Variant) (q : List Byte) : readUntil (hdr v) ((hdr v).take 4 ++ q) = some q := by
  rw [List.take_of_length_le (hdr_length v).le, readUntil_append]

/-- The search ends behind the first header (R45, R156). -/
theorem run_search_found {v : Variant} {q rest : List Byte} {n : Nat} {s : State} (h : s.Searches v) (hq : s.rxq = q)
    (hr : readUntil (hdr v) ((hdr v).take s.midx ++ q) = some rest) (hn : q.length = n + rest.length) :
    RunsTo n s { s with rxq := rest, cur := s.cur + n, midx := 4, fsm := .bodyPending, bidx := 0 } := by
  have hlt := length_lt_of_readUntil h.midx hr
  obtain ⟨n, rfl⟩ : ∃ k, n = k + 1 := Nat.exists_eq_add_one.2 (by omega)
  induction q generalizing s n with
  | nil => simp at hlt
  | cons b q ih =>
    rw [readUntil_matchNext h.midx] at hr
    rw [List.length_cons] at hn
    by_cases hm : matchNext (hdr v) s.midx b = 4
    · rw [hm, readUntil_of_full_match] at hr
      cases hr
      obtain rfl : n = 0 := by omega
      exact .cons (h.step_hit hq hm) (.zero _)
    · have hnext := h.next (q := q) hm
      have hlt' := length_lt_of_readUntil hnext.midx hr
      obtain ⟨n, rfl⟩ : ∃ k, n = k + 1 := Nat.exists_eq_add_one.2 (by omega)
      have hrun := ih hnext rfl hr hlt' n (by omega)
      simp only [Nat.add_right_comm s.cur 1] at hrun
      exact .cons (h.step_on hq hm) hrun

/-- A search that finds no header takes every byte and goes on (R45, R156). -/
theorem run_search_not_found {v : Variant} {q : List Byte} {s : State} (h : s.Searches v) (hq : s.rxq = q)
    (hr : readUntil (hdr v) ((hdr v).take s.midx ++ q) = none) :
    ∃ m, m < 4 ∧ RunsTo q.length s { s with rxq := [], cur := s.cur + q.length, midx := m } := by
  induction q generalizing s with
  | nil =>
    refine ⟨s.midx, h.midx, ?_⟩
    change RunsTo 0 s { s with rxq := [] }
    rw [← hq]
    exact .zero s
  | cons b q ih =>
    rw [readUntil_matchNext h.midx] at hr
    have hm : matchNext (hdr v) s.midx b ≠ 4 := by
      intro hm
      rw [hm, readUntil_of_full_match] at hr
      cases hr
    obtain ⟨m, hm4, hrun⟩ := ih (h.next hm) rfl hr
    simp only [Nat.add_right_comm s.cur 1] at hrun
    exact ⟨m, hm4, .cons (h.step_on hq hm) hrun⟩

/-- Settles O44: a search from its start has matched nothing, so `read_until` of what is left is `read_until`. -/
theorem searchEndsAtTheFirstHeader : Obligations.SearchEndsAtTheFirstHeader := by
  intro s v hv hop hfsm hph hm hf hsched hdone hvalid
  have h : s.Searches v := ⟨⟨hv, hop, hf, hsched, hdone, hvalid⟩, hfsm, hph, by omega⟩
  have hstart : (hdr v).take s.midx ++ s.rxq = s.rxq := by rw [hm]; rfl
  refine ⟨fun rest hr => ?_, fun hr => ?_⟩
  · have hlt := length_lt_of_readUntil (m := 0) (by decide) hr
    exact run_search_found h rfl (by rwa [hstart]) (Nat.sub_add_cancel hlt.le).symm
  · exact run_search_not_found h rfl (by rwa [hstart])

/-! ### The body -/

/-- The bytes of a body are stored one behind the other (R157). -/
theorem run_body {v : Variant} {bytes stored old rest : List Byte} {s : State} (h : s.ReadsAlone v)
    (hfsm : s.fsm = .bodyPending) (hb : s.bidx + bytes.length ≤ blen v) (hq : s.rxq = bytes ++ rest)
    (hbuf : s.pbuf = stored ++ old) (hstored : stored.length = s.bidx) (hold : bytes.length ≤ old.length) :
    RunsTo bytes.length s { s with
      rxq := rest, cur := s.cur + bytes.length, bidx := s.bidx + bytes.length,
      pbuf := stored ++ (bytes ++ old.drop bytes.length) } := by
  induction bytes generalizing s stored old with
  | nil =>
    rw [List.nil_append] at hq
    rw [List.nil_append, List.length_nil, List.drop_zero, ← hq, ← hbuf]
    exact .zero s
  | cons b bytes ih =>
    obtain ⟨o, old, rfl⟩ := List.exists_cons_of_length_pos (Nat.zero_lt_of_lt hold)
    rw [List.length_cons] at hb
    have hset : s.pbuf.set s.bidx b = stored ++ b :: old := by simp [hbuf, ← hstored]
    have hstep := step_body_byte h.nextTurn_eq h.variant h.op hfsm (by omega) h.tfail hq
    rw [h.enterTurn_eq_self, hset] at hstep
    have hrun := ih (stored := stored ++ [b]) (old := old) (s := { s with
        rxq := bytes ++ rest, cur := s.cur + 1, pbuf := stored ++ b :: old, bidx := s.bidx + 1 })
      { h with } hfsm (by simp only; omega) rfl (by simp) (by simp [hstored]) (Nat.le_of_succ_le_succ hold)
    simp only [Nat.add_right_comm s.cur 1, Nat.add_right_comm s.bidx 1, List.append_assoc stored] at hrun
    exact .cons hstep hrun

/-! ### One packet -/

/-- A read that has taken `n` bytes off the queue, the last of them a header and this body, and is at its decode step. -/
def State.packetTaken (v : Variant) (body rest : List Byte) (n : Nat) (s : State) : State :=
  { s with
    rxq := rest, cur := s.cur + n, midx := 4, fsm := .bodyPending, bidx := blen v,
    pbuf := body ++ s.pbuf.drop (blen v) }

/-- A read from the start of its search takes everything up to the end of the body behind the first header, and its
decode step writes the Reading of that body (R155, R157, R158). -/
theorem run_packet {v : Variant} {s : State} {body rest : List Byte} {r : Reading} {n : Nat} (h : s.Searches v)
    (hm : s.midx = 0) (hbuf : s.pbuf.length = 30) (hq : readUntil (hdr v) s.rxq = some (body ++ rest))
    (hr : parse v body = some r) (hn : s.rxq.length = n + rest.length) :
    RunsTo (n + 1) s (decodeStep r (s.packetTaken v body rest n)) := by
  have hlen := length_of_parse hr
  have hlt : (body ++ rest).length < s.rxq.length := length_lt_of_readUntil (m := 0) (by decide) hq
  rw [List.length_append, hn] at hlt
  obtain ⟨k, rfl⟩ : ∃ k, n = k + body.length := Nat.exists_eq_add_of_le' (by omega)
  have hsearch := run_search_found (n := k) h rfl (by rwa [hm]) (by rw [List.length_append]; omega)
  have hbody := run_body (stored := []) (rest := rest) (s := { s with
      rxq := body ++ rest, cur := s.cur + k, midx := 4, fsm := .bodyPending, bidx := 0 })
    { h with } rfl (by simp [hlen]) rfl rfl rfl (by simp [hlen, hbuf, blen_le])
  have htaken : (s.packetTaken v body rest (k + body.length)).ReadsAlone v := { h with }
  have hdecode := step_decode htaken.nextTurn_eq htaken.variant htaken.op rfl rfl (r := r)
    (by rwa [State.packetTaken, List.take_left' hlen])
  rw [htaken.enterTurn_eq_self] at hdecode
  simp only [List.nil_append, hlen, Nat.zero_add, Nat.add_assoc] at hbody
  rw [hlen] at hdecode ⊢
  exact hsearch.trans (hbody.trans (.cons hdecode (.zero _)))

/-! ### READ1 -/

/-- Settles O45: the acceptance step starts a search, and one packet is taken. -/
theorem read1ReadsTheFirstPacket : Obligations.Read1ReadsTheFirstPacket := by
  intro s v body rest r hv hop hl hf hbuf hsched hq hr
  have hv' : s.variant ≠ none := by simp [hv]
  have haccept := (stepRunsThePresentedInstruction s _ [] (.read1 false) hsched (by decide)).trans
    (exec_read1_admitted (s := { s with sched := [], done := false, rdValid := false }) hop hl hv' false)
  have hlt : (body ++ rest).length < s.rxq.length := length_lt_of_readUntil (m := 0) (by decide) hq
  rw [List.length_append] at hlt
  have hn : s.rxq.length = s.rxq.length - rest.length + rest.length := by omega
  have hrun := RunsTo.cons haccept (run_packet ⟨⟨hv, .inl rfl, hf, rfl, rfl, rfl⟩, rfl, rfl, Nat.succ_pos 3⟩ rfl hbuf hq
    hr hn)
  rw [decodeStep_read1 r rfl] at hrun
  rw [Nat.add_comm 1]
  refine Eq.trans hrun ?_
  rw [← hop]
  rfl

/-! ### READALL -/

/-- A READALL at its loop test on a working transport, with nothing scheduled. -/
structure State.LoopsAlone (v : Variant) (s : State) : Prop where
  variant : s.variant = some v
  op : s.op = .readAll
  fsm : s.fsm = .idle ∨ s.fsm = .decoded
  drainPh : s.drainPh = .no
  tfail : s.tfail = false
  sched : s.sched = []
  pbufSize : s.pbuf.length = 30

/-- Where a READALL stands after one more packet (R158): its Reading emitted, its bytes taken. -/
def State.afterPacket (v : Variant) (body rest : List Byte) (r : Reading) (s : State) : State :=
  { s.packetTaken v body rest (total v) with
    rd := r, rdv := true, rdValid := true, out := s.out ++ [r], fsm := .decoded, done := false, sched := [] }

section Loop

variable {v : Variant} {s : State} (h : s.LoopsAlone v)
include h

/-- The next turn is the block's. -/
theorem State.LoopsAlone.nextTurn_eq : nextTurn s = .block := by
  simp [nextTurn, h.sched]

/-- A loop test that goes on starts a search (R160). -/
theorem State.LoopsAlone.searches : State.Searches v { enterTurn s with fsm := .synchronizing, midx := 0 } where
  variant := h.variant
  op := .inr h.op
  tfail := h.tfail
  sched := by simp [h.sched]
  done := rfl
  rdValid := rfl
  fsm := rfl
  drainPh := h.drainPh
  midx := Nat.succ_pos 3

/-- The loop test finds a packet, and the read that follows takes it (R160, R161). -/
theorem State.LoopsAlone.runsTo_afterPacket {body rest : List Byte} {r : Reading} (hq : s.rxq = hdr v ++ body ++ rest)
    (hr : parse v body = some r) : RunsTo (total v + 2) s (s.afterPacket v body rest r) := by
  have hlen : s.rxq.length = total v + rest.length := by
    simp [hq, length_of_parse hr, total_eq]
    omega
  have htest := step_loopTest_on h.nextTurn_eq h.variant h.op h.fsm (by omega)
  have hfound : readUntil (hdr v) s.rxq = some (body ++ rest) := by
    rw [hq, List.append_assoc, readUntil_append]
  have hrun := RunsTo.cons htest (run_packet h.searches rfl h.pbufSize hfound hr hlen)
  rw [decodeStep_readAll r (by exact h.op)] at hrun
  simpa [State.afterPacket, State.packetTaken, enterTurn_eq, h.sched] using hrun

/-- The loop test is next again. -/
theorem State.LoopsAlone.next {body : List Byte} (hb : body.length = blen v) (rest : List Byte) (r : Reading) :
    (s.afterPacket v body rest r).LoopsAlone v :=
  { h with
    fsm := .inr rfl
    sched := rfl
    pbufSize := by
      have hle := blen_le v
      simp [State.afterPacket, State.packetTaken, h.pbufSize, hb]
      omega }

end Loop

/-- What a READALL from `s` leaves that has emitted these Readings and taken `n` bytes (R159, R161). -/
structure ReadallLeaves (s : State) (readings : List Reading) (rest : List Byte) (n : Nat) (t : State) : Prop where
  out : t.out = s.out ++ readings
  rxq : t.rxq = rest
  op : t.op = .none
  outcome : t.outcome = .ok
  linkdown : t.linkdown = s.linkdown
  txq : t.txq = s.txq
  cfgout : t.cfgout = s.cfgout
  cur : t.cur = s.cur + n

/-- A READALL takes one packet for each body and ends at what is less than a packet (R159, R160, R161). -/
theorem run_readall_loop {v : Variant} {bodies : List (List Byte)} {rest : List Byte} {s : State}
    (h : s.LoopsAlone v) (hb : ∀ body ∈ bodies, body.length = blen v) (hrest : rest.length < total v)
    (hq : s.rxq = bodies.flatMap (fun body => hdr v ++ body) ++ rest) :
    ∃ t, RunsTo (bodies.length * (total v + 2) + 1) s t ∧
      ReadallLeaves s (bodies.filterMap (parse v)) rest (bodies.length * total v) t := by
  induction bodies generalizing s with
  | nil =>
    have hend := step_loopTest_end h.nextTurn_eq h.variant h.op h.fsm (by simpa [hq] using hrest)
    rw [List.length_nil, Nat.zero_mul, Nat.zero_mul]
    exact ⟨_, .cons hend (.zero _), by simp [endOp], hq, rfl, rfl, rfl, rfl, rfl, rfl⟩
  | cons body bodies ih =>
    obtain ⟨hbody, hbodies⟩ := List.forall_mem_cons.1 hb
    obtain ⟨-, r, -, hr, -⟩ := exec_body hbody
    rw [List.flatMap_cons, List.append_assoc] at hq
    obtain ⟨t, hrun, hout, hrxq, hop, houtcome, hlink, htxq, hcfgout, hcur⟩ := ih (h.next hbody _ r) hbodies rfl
    refine ⟨t, ?_, ?_, hrxq, hop, houtcome, hlink, htxq, hcfgout, ?_⟩
    · rw [List.length_cons, Nat.succ_mul, Nat.add_comm (_ * _), Nat.add_assoc]
      exact (h.runsTo_afterPacket hq hr).trans hrun
    · rw [hout, List.filterMap_cons_some hr, List.append_cons]
      rfl
    · rw [hcur, List.length_cons, Nat.succ_mul, Nat.add_comm (_ * _), ← Nat.add_assoc]
      rfl

/-- Every body of the variant's length has a Reading (R129). -/
theorem length_filterMap_parse {v : Variant} {bodies : List (List Byte)}
    (hb : ∀ body ∈ bodies, body.length = blen v) : (bodies.filterMap (parse v)).length = bodies.length := by
  rw [List.filterMap_length_eq_length]
  intro body hmem
  obtain ⟨-, r, -, hr, -⟩ := exec_body (hb body hmem)
  rw [hr]
  rfl

/-- Settles O46: the acceptance step leads to the loop test, and the loop takes every packet. -/
theorem readallReadsEveryAlignedPacket : Obligations.ReadallReadsEveryAlignedPacket := by
  intro s v bodies rest hv hop hl hf hbuf hfsm hsched hb hrest hq
  have hv' : s.variant ≠ none := by simp [hv]
  have haccept := (stepRunsThePresentedInstruction s _ [] .readall hsched (by decide)).trans
    (exec_readall_admitted (s := { s with sched := [], done := false, rdValid := false }) hop hl hv')
  have hloop : State.LoopsAlone v (acceptReadall { s with sched := [], done := false, rdValid := false }) :=
    ⟨hv, rfl, hfsm, rfl, hf, rfl, hbuf⟩
  obtain ⟨t, hrun, hout, hrxq, hopt, houtcome, hlink, htxq, hcfgout, hcur⟩ := run_readall_loop hloop hb hrest hq
  refine ⟨t, ?_, hout, ?_, hrxq, hopt, houtcome, hlink.trans hl, htxq, hcfgout, hcur⟩
  · rw [Nat.add_assoc, Nat.add_comm 1]
    exact RunsTo.cons haccept hrun
  · rw [hout, List.length_append, length_filterMap_parse hb]
    rfl

end Sys2Proof.Machine
end

section
/-! PROOFS. The family of spec/60_exceptions.md: a configuration error, a command that is not admitted, and a search,
body or send step that finds the transport failed. -/

namespace Sys2Proof.Machine

/-! ### Configuration errors -/

/-- The selectors above 5 have no rate (R68, R141). -/
theorem speedOfSel_eq_none {sel : BitVec 3} (h : 5 < sel.toNat) : speedOfSel sel = none := by
  rw [speedOfSel_eq]
  exact List.getElem?_eq_none h

/-- The selector 7 has no filter (R69, R141). -/
theorem filterOfSel_eq_none {sel : BitVec 3} (h : 6 < sel.toNat) : filterOfSel sel = none := by
  rw [filterOfSel_eq]
  exact List.getElem?_eq_none h

/-- One invalid selector is enough to have no frame (R141). -/
theorem frameOf_eq_none {speedSel filterSel : BitVec 3} (zero : Bool)
    (h : speedOfSel speedSel = none ∨ filterOfSel filterSel = none) : frameOf speedSel filterSel zero = none := by
  unfold frameOf
  split
  case h_1 hs hf => simp [hs, hf] at h
  case h_2 => rfl

/-- Settles O31: the command is admitted, and its selectors have no frame. -/
theorem invalidSelectorIsAConfigurationError : Obligations.InvalidSelectorIsAConfigurationError := by
  intro s speedSel filterSel zero hop hl hv hinvalid
  have hadmitted : admitted s = true := (admitted_iff s).2 ⟨hop, hl, hv⟩
  have hframe := frameOf_eq_none zero (hinvalid.imp speedOfSel_eq_none filterOfSel_eq_none)
  simp only [exec, execCfgenc, hadmitted, if_true, hframe, raiseConfigurationError]

/-! ### Refusal -/

/-- A host command that is not admitted is refused or ignored (R187). -/
theorem exec_not_admitted {i : Instr} {s : State} (hi : i.slot = .port .cmd) (ha : admitted s = false) :
    exec i s = .next (refuseCommand s) :=
  ((exec_cmd hi s).resolve_left (by simp [ha])).2

/-- A reserved command word is treated as a command that is not admitted (R74, R187). -/
theorem present_reserved {bs : List Byte} (hd : decode (.port .cmd) bs = .rejected .reservedOpcode) (s : State) :
    present ⟨.cmd, bs⟩ s = .next (refuseCommand s) := by
  simp only [present, hd]
  exact if_pos ⟨rfl, rfl⟩

/-- Where no command is admitted, every command word is refused or ignored (R74, R187). -/
theorem present_not_admitted {s : State} (ha : admitted s = false) (w : Half) :
    present ⟨.cmd, halfBytes w⟩ s = .next (refuseCommand s) := by
  obtain ⟨i, hd⟩ | hd := decode_cmd_two_bytes (halfBytes_length w)
  · rw [present_halfBytes hd, exec_not_admitted (decode_port_slot hd) ha]
  · exact present_reserved hd s

/-- Settles O34: either no command is admitted or the word's opcode is reserved. -/
theorem commandsNotAdmittedAreRefusedOrIgnored : Obligations.CommandsNotAdmittedAreRefusedOrIgnored := by
  intro s w q hq hnot
  have hcases : admitted (enterTurn s) = false ∨ w.toNat / 4096 = 0 ∨ 4 ≤ w.toNat / 4096 := by
    obtain h | h | h | h := hnot
    · exact .inl (by simp [admitted, h])
    · exact .inl (by simp [admitted, h])
    · exact .inl (by simp [admitted, h])
    · exact .inr (by omega)
  have hstep : step s = .next (refuseCommand (enterTurn s)) := by
    rw [step_host (nextTurn_of_sched hq)]
    obtain ha | hopcode := hcases
    · exact present_not_admitted ha w
    · exact present_reserved ((decode_cmd_halfBytes w).trans (decodeCommand_reserved hopcode)) _
  rw [hstep, enterTurn_of_sched hq]
  exact ⟨fun hop => congrArg _ (if_pos hop), fun hop => congrArg _ (if_neg hop)⟩

/-! ### Transport errors -/

/-- A transport error in the search or in the body leaves `FSM` at `Idle` (R185). -/
theorem raiseTransportError_of_receiving {s : State} (h : s.fsm = .synchronizing ∨ s.fsm = .bodyPending) :
    raiseTransportError s = { s with
      outcome := .transportError, linkdown := true, op := .none, done := true, fsm := .idle, drainPh := .no } := by
  have hfsm : fsmAfterFailure s.fsm = .idle := by obtain h | h := h <;> rw [h] <;> rfl
  rw [raiseTransportError, hfsm, endOp]

section Receive

variable {s : State} {v : Variant} (hk : nextTurn s = .block) (hv : s.variant = some v)
  (hop : s.op = .read1 ∨ s.op = .readAll) (hf : s.tfail = true)
include hk hv hop hf

/-- A search step that finds the transport failed raises the error (R155, R162). -/
theorem step_search_failed (hfsm : s.fsm = .synchronizing) (hph : s.drainPh = .no) :
    step s = .next (raiseTransportError (enterTurn s)) := by
  obtain ⟨-, hfailed⟩ := (searchStep_cases v (enterTurn s)).resolve_right (by simp [hf])
  rw [step_block hk, blockTurn, enabledRule_enterTurn, enabledRule_search hv hop hfsm hph]
  exact congrArg _ hfailed

/-- A body step that finds the transport failed raises the error (R157, R162). -/
theorem step_body_failed (hfsm : s.fsm = .bodyPending) (hb : s.bidx < blen v) :
    step s = .next (raiseTransportError (enterTurn s)) := by
  obtain ⟨-, hfailed⟩ := (bodyStep_cases (enterTurn s)).resolve_right (by simp [hf])
  rw [step_block hk, blockTurn, enabledRule_enterTurn, enabledRule_body hv hop hfsm hb]
  exact congrArg _ hfailed

end Receive

/-- Settles O35: the failed pop of a search and of a body step, and the failed push of a send step. -/
theorem transportErrorEndsTheOperation : Obligations.TransportErrorEndsTheOperation := by
  intro s v hk hv hf
  refine ⟨fun hop hfsm hph => ?_, fun hop hfsm hb => ?_, fun hop hfsm hx => ?_⟩
  · rw [step_search_failed hk hv hop hf hfsm hph]
    exact congrArg _ (raiseTransportError_of_receiving (s := enterTurn s) (.inl hfsm))
  · rw [step_body_failed hk hv hop hf hfsm hb]
    exact congrArg _ (raiseTransportError_of_receiving (s := enterTurn s) (.inr hfsm))
  · exact step_send_failed hk hop hx hf hfsm

end Sys2Proof.Machine
end

section
/-! PROOFS. The family of spec/70_reset_and_hazards.md: what a reset sets and keeps, and that the block without an
operation does nothing on its own turn. -/

namespace Sys2Proof.Machine

/-! ### The quiescent block -/

/-- Every rule of the block belongs to an operation, so without one none is enabled (R150, R202). -/
theorem enabledRule_of_no_operation {s : State} (h : s.op = .none) : enabledRule s = .quiet := by
  simp [enabledRule, h]

/-- Settles O37: no rule is enabled, so the block's turn only enters the turn. -/
theorem quiescentBlockDoesNothing : Obligations.QuiescentBlockDoesNothing := by
  intro s hk hop
  rw [step_block hk, blockTurn, enabledRule_enterTurn, enabledRule_of_no_operation hop, enterTurn_eq]

/-! ### Reset -/

/-- A reset's turn (R200). -/
theorem step_reset {s : State} {strap : Option Variant} {reopened : Bool} (h : nextTurn s = .reset strap reopened) :
    step s = .next (resetBlock strap reopened (enterTurn s)) := by
  rw [step_takeTurn, h, takeTurn]

/-- A reset that samples a variant gives `RD` that variant's shape, since every state that meets the invariant has it
(R18). -/
theorem resetBlock_rd_hasShape {strap : Option Variant} {v : Variant} (h : strap = some v) (reopened : Bool)
    (s : State) : (resetBlock strap reopened s).rd.HasShape v :=
  (resetBlock_inv strap reopened s).shaped v h

/-- While `RDV` is 0 the reads of `RD` and `SR` have their fault set (R19, R21). -/
theorem hostRead_fault_of_no_reading {t : State} (h : t.rdv = false) :
    (hostRead .rd t).fault = true ∧ (hostRead .sr t).fault = true := by
  simp [hostRead, h]

/-- Before the first valid CFGENC the read of `CFGOUT` has its fault set (R20, R30). -/
theorem hostRead_fault_of_no_frame {t : State} (h : t.cfgoutWritten = false) : (hostRead .cfgout t).fault = true := by
  simp [hostRead, h]

/-- Settles O47: the step is `resetBlock` in the entered state. Each register stands at the value that `resetBlock` writes
or keeps, the shape of `RD` is the invariant's, and the faults follow from `RDV` and the mark of `CFGOUT` being 0. -/
theorem resetSetsTheBlockAndKeepsTheStreams : Obligations.ResetSetsTheBlockAndKeepsTheStreams := by
  intro s strap reopened hk
  obtain ⟨hrd, hsr⟩ := hostRead_fault_of_no_reading (t := resetBlock strap reopened (enterTurn s)) rfl
  have hcfgout := hostRead_fault_of_no_frame (t := resetBlock strap reopened (enterTurn s)) rfl
  have hshape : ∀ v, strap = some v → (resetBlock strap reopened (enterTurn s)).rd.HasShape v :=
    fun _ hv => resetBlock_rd_hasShape hv reopened _
  exact ⟨_, step_reset hk, rfl, rfl, rfl, rfl, rfl, rfl, rfl, rfl, rfl, rfl, rfl, rfl, rfl, rfl, rfl, rfl, rfl, rfl,
    hshape, hrd, hsr, hcfgout⟩

end Sys2Proof.Machine
end
